-- ==== Sys2Proof/Word.lean ====
section
/-! DEFINITION. The words of the block (00_scope.md R4): bytes, 16-bit registers, 64-bit binary64 patterns. -/

namespace Sys2Proof

/-- A byte, 0..255 (00_scope.md R4). -/
abbrev Byte := BitVec 8

/-- `u16`: the width of `crc_reg`, `rx_len`, `rx_cnt` and `rx_crc` (10_state.md R23, R26, R27, R29). -/
abbrev Word16 := BitVec 16

/-- A binary64 bit pattern: sign bit 63, exponent bits 62:52, fraction bits 51:0 (00_scope.md R8). -/
abbrev Word64 := BitVec 64

end Sys2Proof
end

