-- ==== Sys2Proof/Machine/Bytes.lean ====
section
/-! DEFINITION. Byte sequences and byte order: every multi-byte integer is big-endian (00_scope.md R5, 20_memory.md R43,
R44). -/

namespace Sys2Proof

/-- `be16(v)`: the most significant byte first (00_scope.md R5). -/
def be16 (v : Word16) : List Byte :=
  [v.extractLsb' 8 8, v.extractLsb' 0 8]

/-- `be32(v)` (00_scope.md R5). -/
def be32 (v : BitVec 32) : List Byte :=
  [v.extractLsb' 24 8, v.extractLsb' 16 8, v.extractLsb' 8 8, v.extractLsb' 0 8]

/-- `be64(v)`: bit 63 first (30_encoding.md R70). -/
def be64 (v : Word64) : List Byte :=
  [v.extractLsb' 56 8, v.extractLsb' 48 8, v.extractLsb' 40 8, v.extractLsb' 32 8,
   v.extractLsb' 24 8, v.extractLsb' 16 8, v.extractLsb' 8 8, v.extractLsb' 0 8]

/-- The 16-bit integer of two bytes, the most significant first: `(hi << 8) OR lo` (30_encoding.md R72). -/
def word16 (hi lo : Byte) : Word16 :=
  (hi.zeroExtend 16 <<< 8) ||| lo.zeroExtend 16

/-- The 32-bit integer of four bytes, the most significant first. -/
def word32 (a b c d : Byte) : BitVec 32 :=
  (word16 a b).zeroExtend 32 <<< 16 ||| (word16 c d).zeroExtend 32

/-- The 64-bit integer of eight bytes, the most significant first (30_encoding.md R72). -/
def word64 (a b c d e f g h : Byte) : Word64 :=
  (word32 a b c d).zeroExtend 64 <<< 32 ||| (word32 e f g h).zeroExtend 64

/-- The W-byte big-endian two's-complement form of q: `beW(q mod 2^(8W))` (43_command_encoder.md R145). A width is 2 or
4 (00_scope.md R3). -/
def argBytes (width : Nat) (q : Int) : List Byte :=
  if width = 2 then be16 (BitVec.ofInt 16 q) else be32 (BitVec.ofInt 32 q)

/-- The signed integer whose W-byte form the bytes are; none where they are not W bytes. -/
def argValue (width : Nat) (bs : List Byte) : Option Int :=
  if width = 2 then
    match bs with
    | [a, b] => some (word16 a b).toInt
    | _ => none
  else
    match bs with
    | [a, b, c, d] => some (word32 a b c d).toInt
    | _ => none

/-- The signed range of W bytes: −2^(8W−1) to 2^(8W−1) − 1 (43_command_encoder.md R144). -/
def inWidth (width : Nat) (q : Int) : Bool :=
  decide (-(2 : Int) ^ (8 * width - 1) ≤ q) && decide (q ≤ (2 : Int) ^ (8 * width - 1) - 1)

end Sys2Proof
end

