-- ==== Sys2Proof/Config.lean ====
section
/-! DEFINITION. The parameters of a block instance (00_scope.md R2; 92_eei_decisions.md, "Parameters left open to the
model"). Their default values stand in Machine/Params.lean. -/

namespace Sys2Proof

/-- A `DOMAIN_*` of 00_scope.md R2. -/
inductive Domain where
  /-- every finite binary64 value -/
  | allFinite
  /-- the closed interval [lo, hi] -/
  | closed (lo hi : Int)
deriving DecidableEq, Repr

/-- How the scaled product is formed (92_eei_decisions.md D7; 93_implementation_defined.md U5). -/
inductive ProductMode where
  /-- `fl64(v × S)`: the product rounded to binary64 (43_command_encoder.md R141) -/
  | binary64
  /-- the exact real product, the alternative of U5 -/
  | exact
deriving DecidableEq, Repr

/-- How a value halfway between two integers is rounded (92_eei_decisions.md D8; 93_implementation_defined.md U5). -/
inductive TieRule where
  /-- away from zero (43_command_encoder.md R142) -/
  | awayFromZero
  /-- to the even integer, the alternative of U5 -/
  | toEven
deriving DecidableEq, Repr

/-- The markers and the short form's limit (00_scope.md R2). `SHORT_MAX` is a byte, so that a short length always
fits its one-byte field. -/
structure FramingParams where
  shortMax   : Byte
  startShort : Byte
  startLong  : Byte
  endMark    : Byte
deriving DecidableEq, Repr

/-- The CRC's parameters (00_scope.md R2). -/
structure CrcParams where
  poly   : Word16
  init   : Word16
  refIn  : Bool
  refOut : Bool
  xorOut : Word16
deriving DecidableEq, Repr

/-- `CMDID_<k>`, `SCALE_<k>`, `WIDTH_<k>` and `DOMAIN_<k>` of one setting command (00_scope.md R2). -/
structure CmdParams where
  cmdId  : Byte
  scale  : Nat
  width  : Nat
  domain : Domain
deriving DecidableEq, Repr

/-- All parameters of a block instance (00_scope.md R2). -/
structure Config where
  maxLen      : Nat
  framing     : FramingParams
  crc         : CrcParams
  fwVersionId : Byte
  getValuesId : Byte
  duty        : CmdParams
  current     : CmdParams
  brake       : CmdParams
  rpm         : CmdParams
  pos         : CmdParams
  servo       : CmdParams
  product     : ProductMode
  tie         : TieRule
deriving DecidableEq, Repr

end Sys2Proof
end

