-- ==== Sys2Proof/Machine/Params.lean ====
section
/-! DEFINITION. The default parameter values (00_scope.md R2) and the constraints on a configuration (00_scope.md R3). -/

namespace Sys2Proof

/-- `SHORT_MAX`, `START_SHORT`, `START_LONG`, `END_MARK` as the source states them (00_scope.md R2). -/
def FramingParams.source : FramingParams :=
  { shortMax := 255#8, startShort := 0x02#8, startLong := 0x03#8, endMark := 0x03#8 }

/-- `CRC_POLY` 0x1021, `CRC_INIT` 0x0000, most significant bit first, no final XOR (00_scope.md R2, 41_crc16.md R100). -/
def CrcParams.source : CrcParams :=
  { poly := 0x1021#16, init := 0x0000#16, refIn := false, refOut := false, xorOut := 0x0000#16 }

/-- The default configuration (00_scope.md R2). The command ids but 0x05 and the widths and scales but duty's and the
amps scale are marked "from general knowledge" by the spec itself (log 3). -/
def Config.default : Config :=
  { maxLen := 65535
    framing := FramingParams.source
    crc := CrcParams.source
    fwVersionId := 0x00#8
    getValuesId := 0x04#8
    duty    := { cmdId := 0x05#8, scale := 100000,  width := 4, domain := .closed (-1) 1 }
    current := { cmdId := 0x06#8, scale := 1000,    width := 4, domain := .allFinite }
    brake   := { cmdId := 0x07#8, scale := 1000,    width := 4, domain := .allFinite }
    rpm     := { cmdId := 0x08#8, scale := 1,       width := 4, domain := .allFinite }
    pos     := { cmdId := 0x09#8, scale := 1000000, width := 4, domain := .allFinite }
    servo   := { cmdId := 0x0C#8, scale := 1000,    width := 2, domain := .closed 0 1 }
    product := .binary64
    tie     := .awayFromZero }

/-- `SCALE_*` is positive and `WIDTH_*` is 2 or 4 (00_scope.md R3). -/
def CmdParams.ok (p : CmdParams) : Bool :=
  decide (0 < p.scale) && (p.width == 2 || p.width == 4)

/-- The eight `CMDID_*`, in the order of the table of 00_scope.md R2. -/
def Config.cmdIds (c : Config) : List Byte :=
  [c.fwVersionId, c.getValuesId, c.duty.cmdId, c.current.cmdId, c.brake.cmdId, c.rpm.cmdId, c.pos.cmdId, c.servo.cmdId]

/-- The constraints of 00_scope.md R3, and no other: `MAX_LEN` at most 65535, the command ids pairwise distinct, every
scale positive, every width 2 or 4. -/
def Config.ok (c : Config) : Bool :=
  decide (c.maxLen ≤ 65535) && decide c.cmdIds.Nodup &&
    (c.duty.ok && c.current.ok && c.brake.ok && c.rpm.ok && c.pos.ok && c.servo.ok)

end Sys2Proof
end

