-- ==== Sys2Proof/Syntax.lean ====
section
/-! DEFINITION. The rows of spec/opcode_table.json, one constructor each, and the forms in which transactions are
presented to the block. -/

namespace Sys2Proof

/-- The thirteen host operations (30_encoding.md R71), the two frame forms (R60) and the eight command bodies (R63). -/
inductive Instr where
  /-- CRC.CLEAR (41_crc16.md R103) -/
  | crcClear
  /-- CRC.UPDATE b (41_crc16.md R104) -/
  | crcUpdate (b : Byte)
  /-- CRC.READ (41_crc16.md R105) -/
  | crcRead
  /-- FRAME.ENCODE cid, payload (42_tx_framer.md R121) -/
  | frameEncode (cid : Byte) (payload : List Byte)
  /-- CMD.FW_VERSION (43_command_encoder.md R150) -/
  | cmdFwVersion
  /-- CMD.GET_VALUES (43_command_encoder.md R151) -/
  | cmdGetValues
  /-- CMD.SET_DUTY x (43_command_encoder.md R152) -/
  | cmdSetDuty (x : Word64)
  /-- CMD.SET_CURRENT x (43_command_encoder.md R153) -/
  | cmdSetCurrent (x : Word64)
  /-- CMD.SET_BRAKE x (43_command_encoder.md R154) -/
  | cmdSetBrake (x : Word64)
  /-- CMD.SET_RPM x (43_command_encoder.md R155) -/
  | cmdSetRpm (x : Word64)
  /-- CMD.SET_POS x (43_command_encoder.md R156) -/
  | cmdSetPos (x : Word64)
  /-- CMD.SET_SERVO x (43_command_encoder.md R157) -/
  | cmdSetServo (x : Word64)
  /-- RX.BYTE b (44_rx_deframer.md R170) -/
  | rxByte (b : Byte)
  /-- FRAME.SHORT: start marker, 1-byte length, body, CRC field and end byte as they are on the line (30_encoding.md R60) -/
  | frameShort (body : List Byte) (crc : Word16) (last : Byte)
  /-- FRAME.LONG: start marker, 2-byte length, body, CRC field and end byte as they are on the line (30_encoding.md R60) -/
  | frameLong (body : List Byte) (crc : Word16) (last : Byte)
  /-- BODY.FW_VERSION (30_encoding.md R63) -/
  | bodyFwVersion
  /-- BODY.GET_VALUES (30_encoding.md R63) -/
  | bodyGetValues
  /-- BODY.SET_DUTY with argument q (30_encoding.md R63) -/
  | bodySetDuty (q : Int)
  /-- BODY.SET_CURRENT with argument q (30_encoding.md R63) -/
  | bodySetCurrent (q : Int)
  /-- BODY.SET_BRAKE with argument q (30_encoding.md R63) -/
  | bodySetBrake (q : Int)
  /-- BODY.SET_RPM with argument q (30_encoding.md R63) -/
  | bodySetRpm (q : Int)
  /-- BODY.SET_POS with argument q (30_encoding.md R63) -/
  | bodySetPos (q : Int)
  /-- BODY.SET_SERVO with argument q (30_encoding.md R63) -/
  | bodySetServo (q : Int)
deriving DecidableEq, Repr

/-- What the agents present to the block, in the order they present it (20_memory.md R41, R42; log 1). -/
inductive Input where
  /-- a stream of serialised host operations and RX.BYTE operations (30_encoding.md R70, 95_test_vectors.md section 3) -/
  | ops (bytes : List Byte)
  /-- a chunk of bytes the line presents to the receive port (20_memory.md R46) -/
  | line (bytes : List Byte)
  /-- one frame body handed to the transmit framer (30_encoding.md R63; log 9) -/
  | body (bytes : List Byte)
  /-- the reset input (70_reset_and_hazards.md R230) -/
  | reset
deriving DecidableEq, Repr

end Sys2Proof
end

