-- ==== Sys2Proof/WellFormed.lean ====
section
/-! DEFINITION. Which instructions an encoding exists for: the operand ranges of 30_encoding.md R60, R63 and R70. -/

namespace Sys2Proof

/-- The operand ranges of the encodings: a payload of at most 65535 bytes (30_encoding.md R70), a short frame's body of at
most 255 and a long frame's of at most 65535 bytes (the capacity of the length field, R60, R62), and a body argument in
the signed range of its width (43_command_encoder.md R144). -/
def WellFormed (cfg : Config) : Instr → Bool
  | .crcClear => true
  | .crcUpdate _ => true
  | .crcRead => true
  | .frameEncode _ payload => decide (payload.length ≤ 65535)
  | .cmdFwVersion => true
  | .cmdGetValues => true
  | .cmdSetDuty _ => true
  | .cmdSetCurrent _ => true
  | .cmdSetBrake _ => true
  | .cmdSetRpm _ => true
  | .cmdSetPos _ => true
  | .cmdSetServo _ => true
  | .rxByte _ => true
  | .frameShort body _ _ => decide (body.length ≤ 255)
  | .frameLong body _ _ => decide (body.length ≤ 65535)
  | .bodyFwVersion => true
  | .bodyGetValues => true
  | .bodySetDuty q => inWidth cfg.duty.width q
  | .bodySetCurrent q => inWidth cfg.current.width q
  | .bodySetBrake q => inWidth cfg.brake.width q
  | .bodySetRpm q => inWidth cfg.rpm.width q
  | .bodySetPos q => inWidth cfg.pos.width q
  | .bodySetServo q => inWidth cfg.servo.width q

end Sys2Proof
end

