-- ==== Sys2Proof/Decode.lean ====
section
/-! DEFINITION. The decoders and the encoder of the block's two encodings (30_encoding.md): serialised host operations
(R70 to R74), frames (R60 to R62) and command bodies (R63). -/

namespace Sys2Proof

/-- Why bytes are no instruction. -/
inductive DecodeError where
  /-- the stream ends inside the operation, frame or body (30_encoding.md R73) -/
  | truncated
  /-- an op byte not listed in 30_encoding.md R71; it has size 1 (R74) -/
  | illegalOp (op : Byte)
  /-- the bytes do not begin with a start marker (30_encoding.md R62) -/
  | notAFrame
  /-- the bytes are no command body of 30_encoding.md R63 -/
  | notACommandBody
deriving DecidableEq, Repr

/-- Format `B`: one byte operand after the op byte (30_encoding.md R70, R72). -/
def decodeB (mk : Byte → Instr) : List Byte → Except DecodeError (Instr × List Byte)
  | b :: rest => .ok (mk b, rest)
  | [] => .error .truncated

/-- Format `F`: a big-endian 64-bit pattern after the op byte, passed on unchanged (30_encoding.md R70, R72). -/
def decodeF (mk : Word64 → Instr) : List Byte → Except DecodeError (Instr × List Byte)
  | a :: b :: c :: d :: e :: f :: g :: h :: rest => .ok (mk (word64 a b c d e f g h), rest)
  | _ => .error .truncated

/-- Format `P`: cid, the big-endian length m and m payload bytes (30_encoding.md R70, R72). -/
def decodeP : List Byte → Except DecodeError (Instr × List Byte)
  | cid :: hi :: lo :: rest =>
    let m := (word16 hi lo).toNat
    if m ≤ rest.length then .ok (.frameEncode cid (rest.take m), rest.drop m) else .error .truncated
  | _ => .error .truncated

/-- The host-operation decoder (30_encoding.md R71 to R74): one operation from the front of a serialised stream, and
the rest of the stream. -/
def decodeOp : List Byte → Except DecodeError (Instr × List Byte)
  | [] => .error .truncated
  | op :: rest =>
    if op = 0x00#8 then .ok (.crcClear, rest)
    else if op = 0x01#8 then decodeB .crcUpdate rest
    else if op = 0x02#8 then .ok (.crcRead, rest)
    else if op = 0x10#8 then decodeP rest
    else if op = 0x20#8 then .ok (.cmdFwVersion, rest)
    else if op = 0x21#8 then .ok (.cmdGetValues, rest)
    else if op = 0x22#8 then decodeF .cmdSetDuty rest
    else if op = 0x23#8 then decodeF .cmdSetCurrent rest
    else if op = 0x24#8 then decodeF .cmdSetBrake rest
    else if op = 0x25#8 then decodeF .cmdSetRpm rest
    else if op = 0x26#8 then decodeF .cmdSetPos rest
    else if op = 0x27#8 then decodeF .cmdSetServo rest
    else if op = 0x30#8 then decodeB .rxByte rest
    else .error (.illegalOp op)

/-- The part of a frame after its length field: n body bytes, two CRC bytes, the end-marker byte (30_encoding.md R62). -/
def decodeTail (mk : List Byte → Word16 → Byte → Instr) (n : Nat) (bs : List Byte) :
    Except DecodeError (Instr × List Byte) :=
  match bs.drop n with
  | hi :: lo :: last :: rest => .ok (mk (bs.take n) (word16 hi lo) last, rest)
  | _ => .error .truncated

/-- The frame decoder (30_encoding.md R60, R62): the start marker tells the size of the length field, the length field
tells where the frame ends. The CRC field and the end byte are operands, taken as they are. -/
def decodeFrame (cfg : Config) : List Byte → Except DecodeError (Instr × List Byte)
  | [] => .error .truncated
  | start :: rest =>
    if start = cfg.framing.startShort then
      match rest with
      | n :: tail => decodeTail .frameShort n.toNat tail
      | [] => .error .truncated
    else if start = cfg.framing.startLong then
      match rest with
      | hi :: lo :: tail => decodeTail .frameLong (word16 hi lo).toNat tail
      | _ => .error .truncated
    else .error .notAFrame

/-- A setting command's body after its cmdId: exactly W argument bytes (30_encoding.md R63). -/
def decodeArg (mk : Int → Instr) (p : CmdParams) (bs : List Byte) : Except DecodeError Instr :=
  match argValue p.width bs with
  | some q => .ok (mk q)
  | none => .error .notACommandBody

/-- The body decoder: a whole body whose first byte is one of the eight `CMDID_*` and whose argument has the command's
width (30_encoding.md R63). -/
def decodeBody (cfg : Config) : List Byte → Except DecodeError Instr
  | [] => .error .truncated
  | cid :: arg =>
    if cid = cfg.fwVersionId then (if arg = [] then .ok .bodyFwVersion else .error .notACommandBody)
    else if cid = cfg.getValuesId then (if arg = [] then .ok .bodyGetValues else .error .notACommandBody)
    else if cid = cfg.duty.cmdId then decodeArg .bodySetDuty cfg.duty arg
    else if cid = cfg.current.cmdId then decodeArg .bodySetCurrent cfg.current arg
    else if cid = cfg.brake.cmdId then decodeArg .bodySetBrake cfg.brake arg
    else if cid = cfg.rpm.cmdId then decodeArg .bodySetRpm cfg.rpm arg
    else if cid = cfg.pos.cmdId then decodeArg .bodySetPos cfg.pos arg
    else if cid = cfg.servo.cmdId then decodeArg .bodySetServo cfg.servo arg
    else .error .notACommandBody

/-- The bytes of a short frame: start marker, 1-byte length, body, CRC field, end byte (30_encoding.md R60). -/
def shortFrameBytes (f : FramingParams) (body : List Byte) (crc : Word16) (last : Byte) : List Byte :=
  [f.startShort, BitVec.ofNat 8 body.length] ++ body ++ be16 crc ++ [last]

/-- The bytes of a long frame: start marker, 2-byte length, body, CRC field, end byte (30_encoding.md R60). -/
def longFrameBytes (f : FramingParams) (body : List Byte) (crc : Word16) (last : Byte) : List Byte :=
  [f.startLong] ++ be16 (BitVec.ofNat 16 body.length) ++ body ++ be16 crc ++ [last]

/-- The body of a setting command: its cmdId and the W-byte argument (30_encoding.md R63, 43_command_encoder.md R145). -/
def commandBody (p : CmdParams) (q : Int) : List Byte :=
  p.cmdId :: argBytes p.width q

/-- The encoder: the bytes of an instruction, written from the tables of 30_encoding.md R60, R63, R70 and R71. -/
def encode (cfg : Config) : Instr → List Byte
  | .crcClear => [0x00#8]
  | .crcUpdate b => [0x01#8, b]
  | .crcRead => [0x02#8]
  | .frameEncode cid payload => [0x10#8, cid] ++ be16 (BitVec.ofNat 16 payload.length) ++ payload
  | .cmdFwVersion => [0x20#8]
  | .cmdGetValues => [0x21#8]
  | .cmdSetDuty x => 0x22#8 :: be64 x
  | .cmdSetCurrent x => 0x23#8 :: be64 x
  | .cmdSetBrake x => 0x24#8 :: be64 x
  | .cmdSetRpm x => 0x25#8 :: be64 x
  | .cmdSetPos x => 0x26#8 :: be64 x
  | .cmdSetServo x => 0x27#8 :: be64 x
  | .rxByte b => [0x30#8, b]
  | .frameShort body crc last => shortFrameBytes cfg.framing body crc last
  | .frameLong body crc last => longFrameBytes cfg.framing body crc last
  | .bodyFwVersion => [cfg.fwVersionId]
  | .bodyGetValues => [cfg.getValuesId]
  | .bodySetDuty q => commandBody cfg.duty q
  | .bodySetCurrent q => commandBody cfg.current q
  | .bodySetBrake q => commandBody cfg.brake q
  | .bodySetRpm q => commandBody cfg.rpm q
  | .bodySetPos q => commandBody cfg.pos q
  | .bodySetServo q => commandBody cfg.servo q

/-- Which of the table's three spaces a row belongs to: its `format` field (30_encoding.md section 6). -/
inductive Space where
  | op
  | frame
  | body
deriving DecidableEq, Repr

/-- The space of an instruction. -/
def Instr.space : Instr → Space
  | .crcClear | .crcUpdate _ | .crcRead | .frameEncode _ _ | .cmdFwVersion | .cmdGetValues | .cmdSetDuty _
  | .cmdSetCurrent _ | .cmdSetBrake _ | .cmdSetRpm _ | .cmdSetPos _ | .cmdSetServo _ | .rxByte _ => .op
  | .frameShort _ _ _ | .frameLong _ _ _ => .frame
  | .bodyFwVersion | .bodyGetValues | .bodySetDuty _ | .bodySetCurrent _ | .bodySetBrake _ | .bodySetRpm _
  | .bodySetPos _ | .bodySetServo _ => .body

/-- The decoder of a space: an instruction from the front of the bytes, and the bytes after it. A body has no length of
its own on the wire, so the body decoder takes all the bytes. -/
def decodeIn (cfg : Config) : Space → List Byte → Except DecodeError (Instr × List Byte)
  | .op, bs => decodeOp bs
  | .frame, bs => decodeFrame cfg bs
  | .body, bs => (decodeBody cfg bs).map fun i => (i, [])

/-- Exactly n bytes: the first n of bs, filled up with zero bytes. -/
def padTo (n : Nat) (bs : List Byte) : List Byte :=
  bs.take n ++ List.replicate (n - bs.length) 0#8

/-- The bytes of a table word: bit 0 is the least significant bit of the first byte, the second byte is bits 15..8, and
so on; w has nbits bits. -/
def tableBytes (nbits w : Nat) : List Byte :=
  (List.range ((nbits + 7) / 8)).map fun i => BitVec.ofNat 8 (w % 2 ^ nbits / 2 ^ (8 * i))

/-- The size of the host operation a stream begins with (30_encoding.md R70, R73, R74), missing bytes read as zero. -/
def opSize (bs : List Byte) : Nat :=
  match padTo 4 bs with
  | [op, _, hi, lo] =>
    if op = 0x01#8 ∨ op = 0x30#8 then 2
    else if op = 0x10#8 then 4 + (word16 hi lo).toNat
    else if 0x22#8 ≤ op ∧ op ≤ 0x27#8 then 9
    else 1
  | _ => 1

/-- The size of the frame the bytes begin with (30_encoding.md R62), missing bytes read as zero. -/
def frameSize (cfg : Config) (bs : List Byte) : Nat :=
  match padTo 3 bs with
  | [start, a, b] =>
    if start = cfg.framing.startShort then a.toNat + 5
    else if start = cfg.framing.startLong then (word16 a b).toNat + 6
    else 1
  | _ => 1

/-- The size of the command body whose cmdId the bytes begin with (30_encoding.md R63), missing bytes read as zero. -/
def bodySize (cfg : Config) (bs : List Byte) : Nat :=
  match padTo 1 bs with
  | [cid] =>
    if cid = cfg.fwVersionId ∨ cid = cfg.getValuesId then 1
    else if cid = cfg.duty.cmdId then 1 + cfg.duty.width
    else if cid = cfg.current.cmdId then 1 + cfg.current.width
    else if cid = cfg.brake.cmdId then 1 + cfg.brake.width
    else if cid = cfg.rpm.cmdId then 1 + cfg.rpm.width
    else if cid = cfg.pos.cmdId then 1 + cfg.pos.width
    else if cid = cfg.servo.cmdId then 1 + cfg.servo.width
    else 1
  | _ => 1

/-- Whether a decoder read an instruction. -/
def decodesOk {α : Type} : Except DecodeError α → Bool
  | .ok _ => true
  | .error _ => false

/-- The space in which a table word is read, and the bytes of the one instruction it stands for. The three spaces of the
table use the same byte values; a word that is a host operation is read as one, then as a frame, then as a command body
(log 10). -/
def readTableWord (cfg : Config) (nbits w : Nat) : Space × List Byte :=
  let raw := tableBytes nbits w
  let asOp := padTo (opSize raw) raw
  let asFrame := padTo (frameSize cfg raw) raw
  let asBody := padTo (bodySize cfg raw) raw
  if decodesOk (decodeOp asOp) then (.op, asOp)
  else if decodesOk (decodeFrame cfg asFrame) then (.frame, asFrame)
  else if decodesOk (decodeBody cfg asBody) then (.body, asBody)
  else (.op, asOp)

/-- The instruction the decoder reads from a word of spec/opcode_table.json, with the default parameters. -/
def decodeTableWord (nbits w : Nat) : Option Instr :=
  let at_ := readTableWord Config.default nbits w
  match decodeIn Config.default at_.1 at_.2 with
  | .ok (i, _) => some i
  | .error _ => none

end Sys2Proof
end

