-- ==== Sys2Proof/Machine/Binary64.lean ====
section
/-! DEFINITION. Real numbers and binary64 (00_scope.md R8). Every finite binary64 value is an integer multiple of
2^-1074, and so is its product by an integer, so the model holds such a real as that integer, exactly (log 19): the
integer r stands for the real r / 2^1074. -/

namespace Sys2Proof

/-- 2^k, with every written exponent at most 256: Lean's evaluator does not raise to a larger one unless told to
(`pow2_eq` in Laws/Binary64.lean says that it is 2^k). -/
def pow2 (k : Nat) : Nat := (2 ^ 256) ^ (k / 256) * 2 ^ (k % 256)

/-- How many units the real 1 has: a real r is held as the integer r × 2^1074. -/
def unit64 : Nat := pow2 1074

/-- The sign bit, bit 63. -/
def sign64 (x : Word64) : Bool := x.getMsbD 0

/-- The exponent field, bits 62:52. -/
def exp64 (x : Word64) : Nat := (x.extractLsb' 52 11).toNat

/-- The fraction field, bits 51:0. -/
def frac64 (x : Word64) : Nat := (x.extractLsb' 0 52).toNat

/-- `finite(x)`: the exponent field is not all ones (00_scope.md R8). -/
def finite64 (x : Word64) : Bool := exp64 x != 2047

/-- |`val64(x)`| in units of 2^-1074: a subnormal's fraction, or 2^52 + fraction shifted by the exponent. -/
def mag64 (x : Word64) : Nat :=
  if exp64 x = 0 then frac64 x else (2 ^ 52 + frac64 x) * pow2 (exp64 x - 1)

/-- `val64(x)` of a finite pattern, in units of 2^-1074 (00_scope.md R8). Both zeros have the value 0. -/
def val64 (x : Word64) : Int :=
  if sign64 x then -(mag64 x : Int) else (mag64 x : Int)

/-- The multiple of 2^k nearest to r, ties to the even multiple. -/
def roundEvenAt (k r : Nat) : Nat :=
  let q := r / pow2 k
  let rem := r % pow2 k
  let up := if pow2 k < 2 * rem ∨ (2 * rem = pow2 k ∧ q % 2 = 1) then 1 else 0
  (q + up) * pow2 k

/-- How many low bits of r lie below the 53 significant bits of a binary64 value. -/
def dropBits64 (r : Nat) : Nat := r.log2 + 1 - 53

/-- The magnitudes at which rounding gives infinity: 2^1024 − 2^970, in units (00_scope.md R8). -/
def overflow64 : Nat := (pow2 1024 - pow2 970) * unit64

/-- The magnitude of `fl64(r)` for |r| = r units (00_scope.md R8): the nearest binary64 value, ties to an even
fraction; none where it is infinite. -/
def flMag64 (r : Nat) : Option Nat :=
  if overflow64 ≤ r then none else some (roundEvenAt (dropBits64 r) r)

/-- `fl64(r)` in units (00_scope.md R8); none where it is infinite. -/
def fl64 (r : Int) : Option Int :=
  (flMag64 r.natAbs).map fun m => if r < 0 then -(m : Int) else (m : Int)

/-- The natural number nearest to m / 2^1074, a tie going up (`round_half_away`) or to the even number. -/
def roundMag (tie : TieRule) (m : Nat) : Nat :=
  let q := m / unit64
  let rem := m % unit64
  let tieUp : Bool := match tie with
    | .awayFromZero => true
    | .toEven => q % 2 == 1
  if unit64 < 2 * rem ∨ (2 * rem = unit64 ∧ tieUp = true) then q + 1 else q

/-- Rounding to the nearest integer under a tie rule. -/
def roundToInt (tie : TieRule) (p : Int) : Int :=
  if p < 0 then -(roundMag tie p.natAbs : Int) else (roundMag tie p.natAbs : Int)

/-- `round_half_away(r)` (00_scope.md R8, 43_command_encoder.md R142). -/
def roundHalfAway (p : Int) : Int := roundToInt .awayFromZero p

end Sys2Proof
end

