-- ==== Sys2Proof/Machine/State.lean ====
section
/-! DEFINITION. The state of a block instance (10_state.md), the reasons a step of the model stops, and the state after
reset. -/

namespace Sys2Proof.Machine

/-- The five receive states (10_state.md R24). Their numeric encoding is not observable and none is given. -/
inductive RxState where
  | seeking
  | readLen
  | readBody
  | readCrc
  | readEnd
deriving DecidableEq, Repr

/-- The form recorded at the start marker (10_state.md R25). -/
inductive RxForm where
  | short
  | long
deriving DecidableEq, Repr

/-- The result codes of 60_exceptions.md R200. -/
inductive ResultCode where
  | ok
  | argNotFinite
  | argRange
  | txOversized
  | illegalOp
deriving DecidableEq, Repr

/-- What an operation returns to its issuer: `Result(code)` or `Result(code, data)` (00_scope.md R6). Only CRC.READ
returns data (41_crc16.md R105). -/
structure Result where
  code : ResultCode
  data : Option Word16
deriving DecidableEq, Repr

/-- An entry of the receive event stream (10_state.md R32, 60_exceptions.md R201). -/
inductive Event where
  /-- a checked frame's body, exactly as received (44_rx_deframer.md R178) -/
  | frameOk (body : List Byte)
  | checksumError
  | oversizedFrame
  | invalidEndMarker
deriving DecidableEq, Repr

/-- Everything the spec gives a block instance (10_state.md R23 to R32), its parameters (00_scope.md R2), and the model's
own record of results and of the transactions presented (logs 1, 14). -/
structure State where
  /-- the parameters, fixed for the life of the instance (10_state.md R22) -/
  cfg     : Config
  /-- `crc_reg` (R23) -/
  crcReg  : Word16
  /-- `rx_state` (R24) -/
  rxState : RxState
  /-- `rx_form` (R25) -/
  rxForm  : RxForm
  /-- `rx_len` (R26) -/
  rxLen   : Word16
  /-- `rx_cnt` (R27) -/
  rxCnt   : Word16
  /-- `rx_body` (R28) -/
  rxBody  : List Byte
  /-- `rx_crc` (R29) -/
  rxCrc   : Word16
  /-- `tx_out`, one entry for each `Emit`, oldest first (R32, 20_memory.md R47) -/
  txOut   : List (List Byte)
  /-- `rx_evt`, one entry for each `Post`, oldest first (R32) -/
  rxEvt   : List Event
  /-- the results returned on the host port, oldest first (60_exceptions.md R200; the model's record, log 14) -/
  hostRes : List Result
  /-- the results returned on the receive port, oldest first (the model's record, log 14) -/
  lineRes : List Result
  /-- the transactions presented and not yet taken, the next one first (the model's own, log 1) -/
  input   : List Input
deriving DecidableEq, Repr

/-- The faults of the model. -/
inductive Fault where
  /-- Raised by the step in a state that breaks 10_state.md R30, which no step from reset reaches (60_exceptions.md R214,
  93_implementation_defined.md U12). Safe: it stops where the spec gives no behaviour. -/
  | rxStateBroken
deriving DecidableEq, Repr

/-- The refusals of the model. -/
inductive Refusal where
  /-- An instruction that has no meaning yet. No arm of `exec` answers with it. Safe. -/
  | notModelled (mnemonic : String)
  /-- Raised by the step under a configuration that breaks 00_scope.md R3, which "is refused by the model"
  (60_exceptions.md R214, 93_implementation_defined.md U11). Safe. -/
  | badConfig
  /-- Raised by the step where a serialised stream ends inside an operation: "a decoder refuses it and the block never sees
  it" (30_encoding.md R73, 93_implementation_defined.md U13). Safe. -/
  | truncatedOp
deriving DecidableEq, Repr

/-- The block right after reset: the reset values of 10_state.md R31, the default parameters of 00_scope.md R2, and
nothing emitted, posted, returned or presented yet (95_test_vectors.md section 3; log 6). -/
def State.reset : State :=
  { cfg     := Config.default
    crcReg  := 0x0000#16
    rxState := .seeking
    rxForm  := .short
    rxLen   := 0x0000#16
    rxCnt   := 0x0000#16
    rxBody  := []
    rxCrc   := 0x0000#16
    txOut   := []
    rxEvt   := []
    hostRes := []
    lineRes := []
    input   := [] }

end Sys2Proof.Machine
end

