-- ==== Sys2Proof/Machine/Operands.lean ====
section
/-! DEFINITION. The binary64 operand of the CMD.SET_* operations and its fixed-point conversion (43_command_encoder.md
section 1). -/

namespace Sys2Proof.Machine

/-- `v in DOM` for the real v held in units of 2^-1074 (00_scope.md R2, 43_command_encoder.md R143). -/
def inDomain : Domain → Int → Bool
  | .allFinite, _ => true
  | .closed lo hi, v => decide (lo * unit64 ≤ v) && decide (v ≤ hi * unit64)

/-- The scaled product p (43_command_encoder.md R141), in units; none where it is infinite. -/
def scaledProduct (mode : ProductMode) (v : Int) (scale : Nat) : Option Int :=
  match mode with
  | .binary64 => fl64 (v * scale)
  | .exact => some (v * scale)

/-- `fx_encode` (43_command_encoder.md R140): the integer sent on the wire, or the error, the checks in the order of R143
and R144. -/
def fxEncode (mode : ProductMode) (tie : TieRule) (p : CmdParams) (x : Word64) : Except ResultCode Int :=
  if finite64 x = false then .error .argNotFinite
  else if inDomain p.domain (val64 x) = false then .error .argRange
  else
    match scaledProduct mode (val64 x) p.scale with
    | none => .error .argRange
    | some r =>
      let q := roundToInt tie r
      if inWidth p.width q then .ok q else .error .argRange

/-- The real value of a finite pattern as a rational number (00_scope.md R8). -/
def realValue (x : Word64) : ℚ := (val64 x : ℚ) / (unit64 : ℚ)

/-- `fx_decode(q, S)`, the real q / S; no operation of the block applies it (43_command_encoder.md R147). -/
def fxDecode (q : Int) (scale : Nat) : ℚ := (q : ℚ) / (scale : ℚ)

end Sys2Proof.Machine
end

