-- ==== Sys2Proof/Machine/Ops.lean ====
section
/-! DEFINITION. The shared operations of the block: the CRC function (41_crc16.md), the frame builder (42_tx_framer.md),
the output primitives (00_scope.md R6), the common command step (43_command_encoder.md R146), one receive transition
(44_rx_deframer.md R170) and reset (70_reset_and_hazards.md R230). -/

namespace Sys2Proof.Machine

/-- One bit of the CRC: shift left, and add the polynomial where the top bit was 1 (41_crc16.md R101). -/
def crcShift (poly c : Word16) : Word16 :=
  if c.getMsbD 0 then (c <<< 1) ^^^ poly else c <<< 1

/-- `crc_step`: folds one byte into a CRC value, most significant bit first (41_crc16.md R101). With `CRC_REFIN` the byte
enters least significant bit first (log 4). -/
def crcStep (k : CrcParams) (c : Word16) (b : Byte) : Word16 :=
  let b' : Byte := if k.refIn then b.reverse else b
  Nat.repeat (crcShift k.poly) 8 (c ^^^ (b'.zeroExtend 16 <<< 8))

/-- A register value as it is given out: reflected under `CRC_REFOUT`, then XORed with `CRC_XOROUT`; unchanged with the
parameters of 41_crc16.md R100 (log 4). -/
def crcOut (k : CrcParams) (c : Word16) : Word16 :=
  (if k.refOut then c.reverse else c) ^^^ k.xorOut

/-- `crc16`: the CRC of a byte sequence from the initial value (41_crc16.md R101). -/
def crc16 (k : CrcParams) (bs : List Byte) : Word16 :=
  crcOut k (bs.foldl (crcStep k) k.init)

/-- `crc_ok(body, crc)` (44_rx_deframer.md R177). -/
def crcOk (k : CrcParams) (body : List Byte) (crc : Word16) : Bool :=
  crc16 k body == crc

/-- `make_frame` (42_tx_framer.md R120): the frame of a body, or TX_OVERSIZED. -/
def makeFrame (cfg : Config) (body : List Byte) : Except ResultCode (List Byte) :=
  if cfg.maxLen < body.length then .error .txOversized
  else if body.length ≤ cfg.framing.shortMax.toNat then
    .ok (shortFrameBytes cfg.framing body (crc16 cfg.crc body) cfg.framing.endMark)
  else
    .ok (longFrameBytes cfg.framing body (crc16 cfg.crc body) cfg.framing.endMark)

/-- `Emit(f)`: one indivisible unit appended to the transmit stream (00_scope.md R6, 20_memory.md R47). -/
def State.emit (f : List Byte) (s : State) : State :=
  { s with txOut := s.txOut ++ [f] }

/-- `Post(e)`: one event appended to the receive event stream (00_scope.md R6). -/
def State.post (e : Event) (s : State) : State :=
  { s with rxEvt := s.rxEvt ++ [e] }

/-- `Result(code)` or `Result(code, data)` of an operation on the host port (00_scope.md R6). -/
def State.hostResult (code : ResultCode) (data : Option Word16) (s : State) : State :=
  { s with hostRes := s.hostRes ++ [⟨code, data⟩] }

/-- `Result(OK)` of an operation on the receive port (44_rx_deframer.md R170). -/
def State.lineResult (s : State) : State :=
  { s with lineRes := s.lineRes ++ [⟨.ok, none⟩] }

/-- `raise E`: the operation ends with E's result code and no other effect (00_scope.md R7, 60_exceptions.md R211). This
is the block's whole error entry; there is no return (R212). -/
def raise (code : ResultCode) (s : State) : State :=
  s.hostResult code none

/-- The end of every transmit operation: `make_frame`, then `raise TX_OVERSIZED` or `Emit` and `Result(OK)`
(42_tx_framer.md R121, 43_command_encoder.md R146). -/
def sendBody (body : List Byte) (s : State) : State :=
  match makeFrame s.cfg body with
  | .error code => raise code s
  | .ok f => (s.emit f).hostResult .ok none

/-- `cmd_set(k, x)` (43_command_encoder.md R146) for the command whose parameters are p. -/
def cmdSet (p : CmdParams) (x : Word64) (s : State) : State :=
  match fxEncode s.cfg.product s.cfg.tie p x with
  | .error code => raise code s
  | .ok q => sendBody (commandBody p q) s

/-- RX.BYTE in `SEEKING` (44_rx_deframer.md R172). -/
def rxSeeking (b : Byte) (s : State) : State :=
  if b = s.cfg.framing.startShort then
    { s with rxForm := .short, rxLen := 0#16, rxCnt := 0#16, rxState := .readLen }
  else if b = s.cfg.framing.startLong then
    { s with rxForm := .long, rxLen := 0#16, rxCnt := 0#16, rxState := .readLen }
  else s

/-- The end of the length field, the declared length being len (44_rx_deframer.md R173). -/
def rxLengthDone (len : Word16) (s : State) : State :=
  if s.cfg.maxLen < len.toNat then
    { s with rxLen := len, rxCnt := 0#16, rxState := .seeking }.post .oversizedFrame
  else if len = 0#16 then
    { s with rxLen := len, rxCnt := 0#16, rxBody := [], rxState := .readCrc }
  else
    { s with rxLen := len, rxCnt := 0#16, rxBody := [], rxState := .readBody }

/-- RX.BYTE in `READ_LEN` (44_rx_deframer.md R173). -/
def rxReadLen (b : Byte) (s : State) : State :=
  match s.rxForm with
  | .short => rxLengthDone (b.zeroExtend 16) s
  | .long =>
    if s.rxCnt = 0#16 then { s with rxLen := b.zeroExtend 16 <<< 8, rxCnt := 1#16 }
    else rxLengthDone (s.rxLen ||| b.zeroExtend 16) s

/-- RX.BYTE in `READ_BODY` (44_rx_deframer.md R174). -/
def rxReadBody (b : Byte) (s : State) : State :=
  if s.rxCnt + 1#16 = s.rxLen then
    { s with rxBody := s.rxBody ++ [b], rxCnt := 0#16, rxState := .readCrc }
  else
    { s with rxBody := s.rxBody ++ [b], rxCnt := s.rxCnt + 1#16 }

/-- RX.BYTE in `READ_CRC` (44_rx_deframer.md R175). -/
def rxReadCrc (b : Byte) (s : State) : State :=
  if s.rxCnt = 0#16 then { s with rxCrc := b.zeroExtend 16 <<< 8, rxCnt := 1#16 }
  else { s with rxCrc := s.rxCrc ||| b.zeroExtend 16, rxCnt := 0#16, rxState := .readEnd }

/-- RX.BYTE in `READ_END` (44_rx_deframer.md R176, 60_exceptions.md R209): the end marker is tested first, the checksum
only after it. -/
def rxReadEnd (b : Byte) (s : State) : State :=
  let e : Event :=
    if b = s.cfg.framing.endMark then
      if crcOk s.cfg.crc s.rxBody s.rxCrc then .frameOk s.rxBody else .checksumError
    else .invalidEndMarker
  { s with rxState := .seeking }.post e

/-- The transition of the receive state machine (44_rx_deframer.md R170). -/
def rxTransition (b : Byte) (s : State) : State :=
  match s.rxState with
  | .seeking => rxSeeking b s
  | .readLen => rxReadLen b s
  | .readBody => rxReadBody b s
  | .readCrc => rxReadCrc b s
  | .readEnd => rxReadEnd b s

/-- RX.BYTE b: one transition, then `Result(OK)` (44_rx_deframer.md R170). -/
def rxStep (s : State) (b : Byte) : State :=
  (rxTransition b s).lineResult

/-- RX.FEED: one RX.BYTE for each byte, in order (30_encoding.md R78, 20_memory.md R46). -/
def rxFeed (bs : List Byte) (s : State) : State :=
  bs.foldl rxStep s

/-- What stays presented after something was taken from the front of a chunk; an empty chunk is dropped. -/
def putBack (form : List Byte → Input) (bytes : List Byte) (rest : List Input) : List Input :=
  match bytes with
  | [] => rest
  | _ :: _ => form bytes :: rest

/-- Bytes that arrive from the line: the first is taken as one RX.BYTE, the others stay presented, in order, and are one
step each (10_state.md R21, 20_memory.md R46). -/
def receiveFirst (bs : List Byte) (s : State) : State :=
  match bs with
  | [] => s
  | b :: tail => rxStep { s with input := putBack .line tail s.input } b

/-- Whether the low byte of a word is zero. -/
def lowByteZero (w : Word16) : Bool := w.extractLsb' 0 8 == 0#8

/-- The receive-state invariant (10_state.md R30). -/
def State.rxInv (s : State) : Bool :=
  match s.rxState with
  | .seeking => true
  | .readLen =>
    ((s.rxForm == .short && s.rxCnt == 0#16) || (s.rxForm == .long && (s.rxCnt == 0#16 || s.rxCnt == 1#16)))
      && (s.rxCnt != 1#16 || lowByteZero s.rxLen)
  | .readBody =>
    decide (1 ≤ s.rxLen.toNat) && decide (s.rxLen.toNat ≤ s.cfg.maxLen)
      && decide (s.rxCnt.toNat = s.rxBody.length) && decide (s.rxCnt.toNat < s.rxLen.toNat)
  | .readCrc =>
    decide (s.rxBody.length = s.rxLen.toNat) && decide (s.rxLen.toNat ≤ s.cfg.maxLen)
      && (s.rxCnt == 0#16 || s.rxCnt == 1#16) && (s.rxCnt != 1#16 || lowByteZero s.rxCrc)
  | .readEnd =>
    decide (s.rxBody.length = s.rxLen.toNat) && decide (s.rxLen.toNat ≤ s.cfg.maxLen)

/-- The reset input (70_reset_and_hazards.md R230): every register to its reset value of 10_state.md R31; the streams,
the results, the parameters and what is presented stay. The reset value 0x0000 of `crc_reg` is `CRC_INIT` (R31), so that no
CRC.CLEAR is needed after reset (R232). -/
def applyReset (s : State) : State :=
  { s with
    crcReg  := s.cfg.crc.init
    rxState := .seeking
    rxForm  := .short
    rxLen   := 0x0000#16
    rxCnt   := 0x0000#16
    rxBody  := []
    rxCrc   := 0x0000#16 }

end Sys2Proof.Machine
end

