-- ==== Sys2Proof/Machine/Command.lean ====
section
/-! DEFINITION. The command operations (43_command_encoder.md R150 to R157). -/

namespace Sys2Proof.Machine

/-- CMD.FW_VERSION (43_command_encoder.md R150). -/
def execCmdFwVersion (s : State) : Host.Outcome State Fault Refusal :=
  .next (sendBody [s.cfg.fwVersionId] s)

/-- CMD.GET_VALUES (43_command_encoder.md R151). -/
def execCmdGetValues (s : State) : Host.Outcome State Fault Refusal :=
  .next (sendBody [s.cfg.getValuesId] s)

/-- CMD.SET_DUTY x (43_command_encoder.md R152). -/
def execCmdSetDuty (x : Word64) (s : State) : Host.Outcome State Fault Refusal :=
  .next (cmdSet s.cfg.duty x s)

/-- CMD.SET_CURRENT x (43_command_encoder.md R153). -/
def execCmdSetCurrent (x : Word64) (s : State) : Host.Outcome State Fault Refusal :=
  .next (cmdSet s.cfg.current x s)

/-- CMD.SET_BRAKE x (43_command_encoder.md R154): the sign is sent as given. -/
def execCmdSetBrake (x : Word64) (s : State) : Host.Outcome State Fault Refusal :=
  .next (cmdSet s.cfg.brake x s)

/-- CMD.SET_RPM x (43_command_encoder.md R155). -/
def execCmdSetRpm (x : Word64) (s : State) : Host.Outcome State Fault Refusal :=
  .next (cmdSet s.cfg.rpm x s)

/-- CMD.SET_POS x (43_command_encoder.md R156). -/
def execCmdSetPos (x : Word64) (s : State) : Host.Outcome State Fault Refusal :=
  .next (cmdSet s.cfg.pos x s)

/-- CMD.SET_SERVO x (43_command_encoder.md R157). -/
def execCmdSetServo (x : Word64) (s : State) : Host.Outcome State Fault Refusal :=
  .next (cmdSet s.cfg.servo x s)

end Sys2Proof.Machine
end

