-- ==== Sys2Proof/Machine/Crc.lean ====
section
/-! DEFINITION. The CRC generator's operations (41_crc16.md R103 to R105). -/

namespace Sys2Proof.Machine

/-- CRC.CLEAR (41_crc16.md R103): the accumulator to the initial value, which is 0x0000 in R103 and `CRC_INIT` in
general. -/
def execCrcClear (s : State) : Host.Outcome State Fault Refusal :=
  .next ({ s with crcReg := s.cfg.crc.init }.hostResult .ok none)

/-- CRC.UPDATE b (41_crc16.md R104). -/
def execCrcUpdate (b : Byte) (s : State) : Host.Outcome State Fault Refusal :=
  .next ({ s with crcReg := crcStep s.cfg.crc s.crcReg b }.hostResult .ok none)

/-- CRC.READ (41_crc16.md R105): the accumulator's value; with `CRC_REFOUT` or `CRC_XOROUT` set, as `crc16` would give it
out (log 4). -/
def execCrcRead (s : State) : Host.Outcome State Fault Refusal :=
  .next (s.hostResult .ok (some (crcOut s.cfg.crc s.crcReg)))

end Sys2Proof.Machine
end

