-- ==== Sys2Proof/Machine/Deframer.lean ====
section
/-! DEFINITION. The receive deframer's operation (44_rx_deframer.md R170). -/

namespace Sys2Proof.Machine

/-- RX.BYTE b (44_rx_deframer.md R170, R171): one transition in every state and for every byte, result OK. -/
def execRxByte (b : Byte) (s : State) : Host.Outcome State Fault Refusal :=
  .next (rxStep s b)

end Sys2Proof.Machine
end

