-- ==== Sys2Proof/Machine/Framer.lean ====
section
/-! DEFINITION. The transmit framer's operation (42_tx_framer.md R121). -/

namespace Sys2Proof.Machine

/-- FRAME.ENCODE cid, payload (42_tx_framer.md R121): the frame of `[cid] ++ payload`, emitted as one unit. -/
def execFrameEncode (cid : Byte) (payload : List Byte) (s : State) : Host.Outcome State Fault Refusal :=
  .next (sendBody (cid :: payload) s)

end Sys2Proof.Machine
end

