-- ==== Sys2Proof/Machine/Wire.lean ====
section
/-! DEFINITION. The table's wire rows as instructions: a frame that arrives from the line (30_encoding.md R60; log 8)
and a command body that is framed and sent (30_encoding.md R63, 43_command_encoder.md R146; log 9). -/

namespace Sys2Proof.Machine

/-- FRAME.SHORT (30_encoding.md R60): the frame arrives from the line, one byte a step (10_state.md R21): its start
marker is taken as RX.BYTE, its other bytes stay presented (20_memory.md R46; log 8). -/
def execFrameShort (body : List Byte) (crc : Word16) (last : Byte) (s : State) : Host.Outcome State Fault Refusal :=
  .next (receiveFirst (shortFrameBytes s.cfg.framing body crc last) s)

/-- FRAME.LONG (30_encoding.md R60): the frame arrives from the line, one byte a step (10_state.md R21): its start
marker is taken as RX.BYTE, its other bytes stay presented (20_memory.md R46; log 8). -/
def execFrameLong (body : List Byte) (crc : Word16) (last : Byte) (s : State) : Host.Outcome State Fault Refusal :=
  .next (receiveFirst (longFrameBytes s.cfg.framing body crc last) s)

/-- BODY.FW_VERSION (30_encoding.md R63, 43_command_encoder.md R150). -/
def execBodyFwVersion (s : State) : Host.Outcome State Fault Refusal :=
  .next (sendBody [s.cfg.fwVersionId] s)

/-- BODY.GET_VALUES (30_encoding.md R63, 43_command_encoder.md R151). -/
def execBodyGetValues (s : State) : Host.Outcome State Fault Refusal :=
  .next (sendBody [s.cfg.getValuesId] s)

/-- BODY.SET_DUTY q (30_encoding.md R63, 43_command_encoder.md R152). -/
def execBodySetDuty (q : Int) (s : State) : Host.Outcome State Fault Refusal :=
  .next (sendBody (commandBody s.cfg.duty q) s)

/-- BODY.SET_CURRENT q (30_encoding.md R63, 43_command_encoder.md R153). -/
def execBodySetCurrent (q : Int) (s : State) : Host.Outcome State Fault Refusal :=
  .next (sendBody (commandBody s.cfg.current q) s)

/-- BODY.SET_BRAKE q (30_encoding.md R63, 43_command_encoder.md R154). -/
def execBodySetBrake (q : Int) (s : State) : Host.Outcome State Fault Refusal :=
  .next (sendBody (commandBody s.cfg.brake q) s)

/-- BODY.SET_RPM q (30_encoding.md R63, 43_command_encoder.md R155). -/
def execBodySetRpm (q : Int) (s : State) : Host.Outcome State Fault Refusal :=
  .next (sendBody (commandBody s.cfg.rpm q) s)

/-- BODY.SET_POS q (30_encoding.md R63, 43_command_encoder.md R156). -/
def execBodySetPos (q : Int) (s : State) : Host.Outcome State Fault Refusal :=
  .next (sendBody (commandBody s.cfg.pos q) s)

/-- BODY.SET_SERVO q (30_encoding.md R63, 43_command_encoder.md R157). -/
def execBodySetServo (q : Int) (s : State) : Host.Outcome State Fault Refusal :=
  .next (sendBody (commandBody s.cfg.servo q) s)

end Sys2Proof.Machine
end

