-- ==== Sys2Proof/Machine/Dispatch.lean ====
section
/-! DEFINITION. The dispatch: one arm for each row of spec/opcode_table.json. -/

namespace Sys2Proof.Machine

def exec (i : Instr) (s : State) : Host.Outcome State Fault Refusal :=
  match i with
  | .crcClear => Sys2Proof.Machine.execCrcClear s
  | .crcUpdate b => Sys2Proof.Machine.execCrcUpdate b s
  | .crcRead => Sys2Proof.Machine.execCrcRead s
  | .frameEncode cid payload => Sys2Proof.Machine.execFrameEncode cid payload s
  | .cmdFwVersion => Sys2Proof.Machine.execCmdFwVersion s
  | .cmdGetValues => Sys2Proof.Machine.execCmdGetValues s
  | .cmdSetDuty x => Sys2Proof.Machine.execCmdSetDuty x s
  | .cmdSetCurrent x => Sys2Proof.Machine.execCmdSetCurrent x s
  | .cmdSetBrake x => Sys2Proof.Machine.execCmdSetBrake x s
  | .cmdSetRpm x => Sys2Proof.Machine.execCmdSetRpm x s
  | .cmdSetPos x => Sys2Proof.Machine.execCmdSetPos x s
  | .cmdSetServo x => Sys2Proof.Machine.execCmdSetServo x s
  | .rxByte b => Sys2Proof.Machine.execRxByte b s
  | .frameShort body crc last => Sys2Proof.Machine.execFrameShort body crc last s
  | .frameLong body crc last => Sys2Proof.Machine.execFrameLong body crc last s
  | .bodyFwVersion => Sys2Proof.Machine.execBodyFwVersion s
  | .bodyGetValues => Sys2Proof.Machine.execBodyGetValues s
  | .bodySetDuty q => Sys2Proof.Machine.execBodySetDuty q s
  | .bodySetCurrent q => Sys2Proof.Machine.execBodySetCurrent q s
  | .bodySetBrake q => Sys2Proof.Machine.execBodySetBrake q s
  | .bodySetRpm q => Sys2Proof.Machine.execBodySetRpm q s
  | .bodySetPos q => Sys2Proof.Machine.execBodySetPos q s
  | .bodySetServo q => Sys2Proof.Machine.execBodySetServo q s

end Sys2Proof.Machine
end

