-- ==== Sys2Proof/Machine/Fetch.lean ====
section
/-! DEFINITION. How the block takes its next transaction from what the agents presented (20_memory.md R41, R42;
30_encoding.md R70 to R74; log 1), and the checks of 60_exceptions.md R214. -/

namespace Sys2Proof.Machine

/-- What the block takes next. `rest` is what stays presented. -/
inductive Fetched where
  /-- nothing is presented: the block waits (20_memory.md R49) -/
  | idle
  /-- the reset input (70_reset_and_hazards.md R230) -/
  | reset (rest : List Input)
  /-- an instruction -/
  | run (i : Instr) (rest : List Input)
  /-- an unassigned op byte (30_encoding.md R74) -/
  | illegal (rest : List Input)
  /-- a stream that ends inside an operation (30_encoding.md R73) -/
  | truncated
deriving DecidableEq, Repr

/-- The next transaction of a serialised stream (30_encoding.md R70 to R74); an unassigned op byte has size 1 (R74). -/
def fetchOps (bytes : List Byte) (rest : List Input) : Fetched :=
  match decodeOp bytes with
  | .ok (i, tail) => .run i (putBack .ops tail rest)
  | .error (.illegalOp _) => .illegal (putBack .ops (bytes.drop 1) rest)
  | .error _ => .truncated

/-- The next transaction of a chunk from the line: the frame row where the chunk begins with the layout of one, else
RX.BYTE of its first byte; either takes exactly that one byte (10_state.md R21, 20_memory.md R46; log 8, 11). -/
def fetchLine (cfg : Config) (b : Byte) (bytes : List Byte) (rest : List Input) : Fetched :=
  match decodeFrame cfg (b :: bytes) with
  | .ok (i, tail) => .run i (putBack .line tail rest)
  | .error _ => .run (.rxByte b) (putBack .line bytes rest)

/-- A body handed to the framer: a command body where it is one (30_encoding.md R63), else FRAME.ENCODE of its first byte
and the rest, which accepts any cmdId (30_encoding.md R75; log 11). -/
def fetchBody (cfg : Config) (cid : Byte) (payload : List Byte) (rest : List Input) : Fetched :=
  match decodeBody cfg (cid :: payload) with
  | .ok i => .run i rest
  | .error _ => .run (.frameEncode cid payload) rest

/-- The next transaction of all that is presented; an empty chunk presents none. -/
def fetchFrom (cfg : Config) : List Input → Fetched
  | [] => .idle
  | .reset :: rest => .reset rest
  | .ops [] :: rest => fetchFrom cfg rest
  | .line [] :: rest => fetchFrom cfg rest
  | .body [] :: rest => fetchFrom cfg rest
  | .ops (b :: bytes) :: rest => fetchOps (b :: bytes) rest
  | .line (b :: bytes) :: rest => fetchLine cfg b bytes rest
  | .body (b :: bytes) :: rest => fetchBody cfg b bytes rest

/-- The next transaction of a state. -/
def fetch (s : State) : Fetched := fetchFrom s.cfg s.input

/-- An unassigned op byte: ILLEGAL_OP and no other effect (30_encoding.md R74, 60_exceptions.md R208). -/
def illegalOp (s : State) : State := raise .illegalOp s

/-- The presented form of a table word: a stream of one operation, a chunk of one frame, or one body (log 10). -/
def tableInput (cfg : Config) (nbits w : Nat) : Input :=
  let at_ := readTableWord cfg nbits w
  match at_.1 with
  | .op => .ops at_.2
  | .frame => .line at_.2
  | .body => .body at_.2

end Sys2Proof.Machine
end

