-- ==== Sys2Proof/Machine/Step.lean ====
section
/-! DEFINITION. One step of the block: the model's two checks (60_exceptions.md R214), then the next transaction. -/

namespace Sys2Proof.Machine

/-- One step (00_scope.md R9): refuse a configuration that breaks R3 (00_scope.md R3), fault in a state that breaks R30
(93_implementation_defined.md U12), else take the next transaction; with none presented the block waits (empty chunks are dropped). -/
def step (s : State) : Host.Outcome State Fault Refusal :=
  if s.cfg.ok = false then .refused .badConfig
  else if s.rxInv = false then .fault .rxStateBroken
  else
    match fetch s with
    | .idle => .next { s with input := [] }
    | .reset rest => .next (applyReset { s with input := rest })
    | .run i rest => exec i { s with input := rest }
    | .illegal rest => .next (illegalOp { s with input := rest })
    | .truncated => .refused .truncatedOp

/-- The state with one more transaction presented in front of all others: the instruction of a table word (log 1, 10). -/
def State.withFetchWord (s : State) (nbits w : Nat) : State :=
  { s with input := tableInput s.cfg nbits w :: s.input }

end Sys2Proof.Machine
end

