-- ==== Sys2Proof/Machine/Flags.lean ====
section
/-! DEFINITION. The block has no flags (10_state.md R22); what an operation reports are result codes and events. Here are
their numbers and serialised forms (60_exceptions.md R200, R201; 41_crc16.md R105). -/

namespace Sys2Proof.Machine

/-- The number of a result code (60_exceptions.md R200). -/
def ResultCode.number : ResultCode → Byte
  | .ok => 0x00#8
  | .argNotFinite => 0x01#8
  | .argRange => 0x02#8
  | .txOversized => 0x03#8
  | .illegalOp => 0x04#8

/-- The data bytes of a result: `be16` of CRC.READ's value (41_crc16.md R105), nothing otherwise. -/
def Result.dataBytes (r : Result) : List Byte :=
  match r.data with
  | some c => be16 c
  | none => []

/-- The number of an event code (60_exceptions.md R201). -/
def Event.number : Event → Byte
  | .frameOk _ => 0x00#8
  | .checksumError => 0x01#8
  | .oversizedFrame => 0x02#8
  | .invalidEndMarker => 0x03#8

/-- The serialised form of an event: `[0x00] ++ be16(n) ++ body`, or the code alone (60_exceptions.md R201). -/
def Event.serialised : Event → List Byte
  | .frameOk body => [0x00#8] ++ be16 (BitVec.ofNat 16 body.length) ++ body
  | .checksumError => [0x01#8]
  | .oversizedFrame => [0x02#8]
  | .invalidEndMarker => [0x03#8]

end Sys2Proof.Machine
end

