-- ==== Sys2Proof/Safety.lean ====
section
/-! DEFINITION. What a safe state is, the two sides of the block, and runs of instructions, in the terms the statements
use. -/

namespace Sys2Proof.Machine

/-- The invariant of a block instance: a configuration that 00_scope.md R3 admits and a receive state that 10_state.md
R30 admits. -/
def StateInv (s : State) : Prop := s.cfg.ok = true ∧ s.rxInv = true

/-- Whether an instruction acts on the receive port (20_memory.md R41): RX.BYTE and the two frame rows. All others act on
the host port. -/
def onLine : Instr → Bool
  | .rxByte _ | .frameShort _ _ _ | .frameLong _ _ _ => true
  | .crcClear | .crcUpdate _ | .crcRead | .frameEncode _ _ | .cmdFwVersion | .cmdGetValues | .cmdSetDuty _
  | .cmdSetCurrent _ | .cmdSetBrake _ | .cmdSetRpm _ | .cmdSetPos _ | .cmdSetServo _ | .bodyFwVersion | .bodyGetValues
  | .bodySetDuty _ | .bodySetCurrent _ | .bodySetBrake _ | .bodySetRpm _ | .bodySetPos _ | .bodySetServo _ => false

/-- The host side of two states agrees: `crc_reg`, `tx_out`, the host port's results (10_state.md R34). -/
def SameHostSide (s t : State) : Prop :=
  t.crcReg = s.crcReg ∧ t.txOut = s.txOut ∧ t.hostRes = s.hostRes

/-- The line side of two states agrees: the `rx_*` registers, `rx_evt`, the receive port's results (10_state.md R34). -/
def SameLineSide (s t : State) : Prop :=
  t.rxState = s.rxState ∧ t.rxForm = s.rxForm ∧ t.rxLen = s.rxLen ∧ t.rxCnt = s.rxCnt ∧ t.rxBody = s.rxBody ∧
    t.rxCrc = s.rxCrc ∧ t.rxEvt = s.rxEvt ∧ t.lineRes = s.lineRes

/-- The instructions one after the other, stopping at the first fault or refusal. -/
def runInstrs : List Instr → State → Host.Outcome State Fault Refusal
  | [], s => .next s
  | i :: is, s =>
    match exec i s with
    | .next t => runInstrs is t
    | .fault r => .fault r
    | .refused r => .refused r

/-- The state an outcome goes on in, if it goes on. -/
def nextState (o : Host.Outcome State Fault Refusal) : Option State :=
  match o with
  | .next s => some s
  | .fault _ => none
  | .refused _ => none

/-- The wire constants of the source: markers, short limit and CRC as 00_scope.md R2 states them. `MAX_LEN`, command ids,
scales, widths and domains may be any. -/
def SourceWire (c : Config) : Prop :=
  c.framing = FramingParams.source ∧ c.crc = CrcParams.source

/-- A byte sequence with one bit flipped: bit j counts from the most significant bit of the first byte. -/
def flipBit (bs : List Byte) (j : Nat) : List Byte :=
  bs.modify (j / 8) fun b => b ^^^ (0x80#8 >>> (j % 8))

end Sys2Proof.Machine
end

