-- ==== Sys2Proof/Certificates/Slice0/Obligations.lean ====
section
/-! DEFINITION. The statements for the provers. Each docstring names the rule of spec/ that the statement formalises, or
says that it is the model's choice and names the log entry. Results are read in the model's records `hostRes` and `lineRes`
(log 14), and what an agent presents in `input` (log 1). -/

namespace Sys2Proof.Machine

/-- `Result(OK)`. -/
def okResult : Result := ⟨.ok, none⟩

/-- The state in which a host operation has returned a result and done nothing else. -/
def returned (s : State) (code : ResultCode) : State := { s with hostRes := s.hostRes ++ [⟨code, none⟩] }

/-- A frame as 30_encoding.md R60 lays it out, with the markers and the CRC of the source. -/
def sourceFrame (body : List Byte) : List Byte :=
  (if body.length ≤ 255 then [0x02#8, BitVec.ofNat 8 body.length]
    else 0x03#8 :: be16 (BitVec.ofNat 16 body.length)) ++
  body ++ be16 (crc16 CrcParams.source body) ++ [0x03#8]

/-- The state in which a host operation has emitted the frame of a body and returned OK. -/
def emitted (s : State) (body : List Byte) : State :=
  { s with txOut := s.txOut ++ [sourceFrame body], hostRes := s.hostRes ++ [okResult] }

/-- The product and tie modes of 43_command_encoder.md R141 and R142. -/
def SourceRounding (c : Config) : Prop := c.product = .binary64 ∧ c.tie = .awayFromZero

/-- A setting command with an argument that passes every check sends the frame of its body (43_command_encoder.md R146). -/
def SendsScaled (mk : Word64 → Instr) (prm : Config → CmdParams) : Prop :=
  ∀ (x : Word64) (s : State) (p : Int), SourceWire s.cfg → SourceRounding s.cfg →
    finite64 x = true → inDomain (prm s.cfg).domain (val64 x) = true →
    fl64 (val64 x * (prm s.cfg).scale) = some p →
    inWidth (prm s.cfg).width (roundHalfAway p) = true →
    1 + (argBytes (prm s.cfg).width (roundHalfAway p)).length ≤ s.cfg.maxLen →
    exec (mk x) s = .next (emitted s ((prm s.cfg).cmdId :: argBytes (prm s.cfg).width (roundHalfAway p)))

/-- A setting command returns the first failing check's code, in the order of 60_exceptions.md R210, and does nothing
else. -/
def RaisesInOrder (mk : Word64 → Instr) (prm : Config → CmdParams) : Prop :=
  ∀ (x : Word64) (s : State), SourceWire s.cfg → SourceRounding s.cfg →
    (finite64 x = false → exec (mk x) s = .next (returned s .argNotFinite)) ∧
    (finite64 x = true → inDomain (prm s.cfg).domain (val64 x) = false →
      exec (mk x) s = .next (returned s .argRange)) ∧
    (finite64 x = true → inDomain (prm s.cfg).domain (val64 x) = true →
      fl64 (val64 x * (prm s.cfg).scale) = none → exec (mk x) s = .next (returned s .argRange)) ∧
    (∀ p, finite64 x = true → inDomain (prm s.cfg).domain (val64 x) = true →
      fl64 (val64 x * (prm s.cfg).scale) = some p → inWidth (prm s.cfg).width (roundHalfAway p) = false →
      exec (mk x) s = .next (returned s .argRange)) ∧
    (∀ p, finite64 x = true → inDomain (prm s.cfg).domain (val64 x) = true →
      fl64 (val64 x * (prm s.cfg).scale) = some p → inWidth (prm s.cfg).width (roundHalfAway p) = true →
      s.cfg.maxLen < 1 + (argBytes (prm s.cfg).width (roundHalfAway p)).length →
      exec (mk x) s = .next (returned s .txOversized))

/-- A body row with argument q is framed and sent, or is too long and returns TX_OVERSIZED. -/
def SendsBody (mk : Int → Instr) (prm : Config → CmdParams) : Prop :=
  ∀ (q : Int) (s : State), SourceWire s.cfg →
    (1 + (argBytes (prm s.cfg).width q).length ≤ s.cfg.maxLen →
      exec (mk q) s = .next (emitted s ((prm s.cfg).cmdId :: argBytes (prm s.cfg).width q))) ∧
    (s.cfg.maxLen < 1 + (argBytes (prm s.cfg).width q).length → exec (mk q) s = .next (returned s .txOversized))

/-- The event of a frame with body, CRC field and end byte as received (44_rx_deframer.md R176). -/
def frameEvent (body : List Byte) (crc : Word16) (last : Byte) : Event :=
  if last = 0x03#8 then (if crc16 CrcParams.source body = crc then .frameOk body else .checksumError)
  else .invalidEndMarker

/-- The state after a whole frame of k bytes has been received from `SEEKING`. -/
def received (s : State) (form : RxForm) (body : List Byte) (crc : Word16) (e : Event) (k : Nat) : State :=
  { s with
    rxState := .seeking, rxForm := form, rxLen := BitVec.ofNat 16 body.length, rxCnt := 0#16, rxBody := body,
    rxCrc := crc, rxEvt := s.rxEvt ++ [e], lineRes := s.lineRes ++ List.replicate k okResult }

/-- The state after the start marker of a frame has been received from `SEEKING`, the frame's other bytes presented. -/
def arriving (s : State) (form : RxForm) (others : List Byte) : State :=
  { s with
    rxForm := form, rxLen := 0#16, rxCnt := 0#16, rxState := .readLen, lineRes := s.lineRes ++ [okResult],
    input := .line others :: s.input }

/-- RX.FEED of a byte sequence (30_encoding.md R78). -/
def feed (bs : List Byte) (s : State) : Host.Outcome State Fault Refusal := runInstrs (bs.map Instr.rxByte) s

/-- The op bytes of 30_encoding.md R71. -/
def assignedOps : List Byte :=
  [0x00#8, 0x01#8, 0x02#8, 0x10#8, 0x20#8, 0x21#8, 0x22#8, 0x23#8, 0x24#8, 0x25#8, 0x26#8, 0x27#8, 0x30#8]

/-- The bits of a byte sequence, the most significant bit of the first byte first. -/
def bitsOf (bs : List Byte) : List Bool := bs.flatMap fun b => (List.range 8).map fun i => b.getMsbD i

open Polynomial in
/-- The polynomial over the two-element field whose coefficients are the bits, the highest power first. -/
noncomputable def bitsPoly (bits : List Bool) : (ZMod 2)[X] :=
  bits.foldl (fun p b => p * X + (if b then 1 else 0)) 0

end Sys2Proof.Machine

open Sys2Proof Sys2Proof.Machine

/-! ### Configuration, reset and the step -/

/-- 00_scope.md R2: the default value of every parameter. The ids, scales and widths that the spec marks "from general
knowledge, not in source" are no rule of the source (log 3). -/
def Obligations.DefaultParameterValues : Prop :=
  Config.default.maxLen = 65535 ∧
  Config.default.framing = ⟨255#8, 0x02#8, 0x03#8, 0x03#8⟩ ∧
  Config.default.crc = ⟨0x1021#16, 0x0000#16, false, false, 0x0000#16⟩ ∧
  Config.default.fwVersionId = 0x00#8 ∧ Config.default.getValuesId = 0x04#8 ∧
  Config.default.duty = ⟨0x05#8, 100000, 4, .closed (-1) 1⟩ ∧
  Config.default.current = ⟨0x06#8, 1000, 4, .allFinite⟩ ∧
  Config.default.brake = ⟨0x07#8, 1000, 4, .allFinite⟩ ∧
  Config.default.rpm = ⟨0x08#8, 1, 4, .allFinite⟩ ∧
  Config.default.pos = ⟨0x09#8, 1000000, 4, .allFinite⟩ ∧
  Config.default.servo = ⟨0x0C#8, 1000, 2, .closed 0 1⟩

/-- 00_scope.md R3: a configuration is refused exactly where it breaks one of the constraints. -/
def Obligations.BrokenConfigurationRefused : Prop :=
  ∀ s : State, step s = .refused .badConfig ↔
    ¬ (s.cfg.maxLen ≤ 65535 ∧
        [s.cfg.fwVersionId, s.cfg.getValuesId, s.cfg.duty.cmdId, s.cfg.current.cmdId, s.cfg.brake.cmdId,
          s.cfg.rpm.cmdId, s.cfg.pos.cmdId, s.cfg.servo.cmdId].Pairwise (· ≠ ·) ∧
        ∀ p ∈ [s.cfg.duty, s.cfg.current, s.cfg.brake, s.cfg.rpm, s.cfg.pos, s.cfg.servo],
          0 < p.scale ∧ (p.width = 2 ∨ p.width = 4))

/-- 10_state.md R31 and 70_reset_and_hazards.md R230: the reset values, in the state right after reset and after the reset
input, which leaves `tx_out`, `rx_evt` and the parameters. That the reset input is presented among the transactions and
taken as one step is the model's choice (log 7). -/
def Obligations.ResetSetsResetValues : Prop :=
  (State.reset.rxState = .seeking ∧ State.reset.crcReg = 0x0000#16 ∧ State.reset.rxForm = .short ∧
    State.reset.rxLen = 0#16 ∧ State.reset.rxCnt = 0#16 ∧ State.reset.rxBody = [] ∧ State.reset.rxCrc = 0x0000#16) ∧
  ∀ (s : State) (rest : List Input), StateInv s → SourceWire s.cfg → s.input = .reset :: rest →
    step s = .next { s with
      rxState := .seeking, crcReg := 0x0000#16, rxForm := .short, rxLen := 0#16, rxCnt := 0#16, rxBody := [],
      rxCrc := 0x0000#16, input := rest }

/-- The state right after reset meets the invariant (10_state.md R30, R31; 00_scope.md R3). -/
def Obligations.ResetMeetsInvariant : Prop := StateInv State.reset

/-- 10_state.md R30 and 00_scope.md R3 as an invariant: every step keeps it, and changes no parameter
(10_state.md R22). -/
def Obligations.StepKeepsInvariant : Prop :=
  ∀ s t : State, StateInv s → step s = .next t → StateInv t ∧ t.cfg = s.cfg

/-- 60_exceptions.md R214: from a state that meets the invariant a step goes on, but for a presented stream that ends
inside an operation, which the decoder refuses (30_encoding.md R73). -/
def Obligations.StepStopsOnlyAtTruncatedStream : Prop :=
  ∀ s : State, StateInv s →
    (∃ t, step s = .next t) ∨
    (step s = .refused .truncatedOp ∧
      ∃ pre bs rest, s.input = pre ++ .ops bs :: rest ∧
        (∀ x ∈ pre, x = .ops [] ∨ x = .line [] ∨ x = .body []) ∧ bs ≠ [] ∧ decodeOp bs = .error .truncated)

/-- A step runs the decoded instruction (00_scope.md R9): what is presented next and decodes to i is taken from what is
presented, and the step is `exec i`. How transactions are presented is the model's choice (log 1), and so are the second
clause, that a line chunk with the layout of a frame runs a FRAME row (log 8, 11), and the third, that a presented body runs
a BODY row (log 9, 11). -/
def Obligations.StepRunsDecodedInstruction : Prop :=
  ∀ (s : State) (i : Instr) (bs tail : List Byte) (rest : List Input), StateInv s →
    (s.input = .ops bs :: rest → decodeOp bs = .ok (i, tail) →
      step s = exec i { s with input := putBack .ops tail rest }) ∧
    (s.input = .line bs :: rest → decodeFrame s.cfg bs = .ok (i, tail) →
      step s = exec i { s with input := putBack .line tail rest }) ∧
    (s.input = .body bs :: rest → decodeBody s.cfg bs = .ok i → step s = exec i { s with input := rest })

/-- The model's choices (log 1, 11): a byte from the line that begins no whole frame is one RX.BYTE, a body that is no
command body is one FRAME.ENCODE, an empty chunk presents nothing, and with nothing presented the block waits. -/
def Obligations.StepTakesEverythingElsePresented : Prop :=
  ∀ (s : State) (b : Byte) (bs : List Byte) (e : DecodeError) (rest : List Input), StateInv s →
    (s.input = .line (b :: bs) :: rest → decodeFrame s.cfg (b :: bs) = .error e →
      step s = exec (.rxByte b) { s with input := putBack .line bs rest }) ∧
    (s.input = .body (b :: bs) :: rest → decodeBody s.cfg (b :: bs) = .error e →
      step s = exec (.frameEncode b bs) { s with input := rest }) ∧
    (s.input = .ops [] :: rest ∨ s.input = .line [] :: rest ∨ s.input = .body [] :: rest →
      step s = step { s with input := rest }) ∧
    (s.input = [] → step s = .next s)

/-- 60_exceptions.md R208: an operation whose op byte is not in 30_encoding.md R71 returns ILLEGAL_OP and has no other
effect; it is one byte long (30_encoding.md R74). -/
def Obligations.UnassignedOpReturnsIllegalOp : Prop :=
  ∀ (s : State) (op : Byte) (tail : List Byte) (rest : List Input), StateInv s → op ∉ assignedOps →
    s.input = .ops (op :: tail) :: rest →
    step s = .next { s with
      input := putBack .ops tail rest, hostRes := s.hostRes ++ [⟨.illegalOp, none⟩] }

/-- 30_encoding.md R73, "A serialised stream that ends inside an operation is not an operation: a decoder refuses it":
the decoder refuses every proper beginning of an operation, and the step that finds one refuses it (log 13). -/
def Obligations.TruncatedOperationRefused : Prop :=
  ∀ (cfg : Config) (i : Instr) (n : Nat), i.space = .op → WellFormed cfg i = true →
    0 < n → n < (encode cfg i).length →
    decodeOp ((encode cfg i).take n) = .error .truncated ∧
    ∀ (s : State) (rest : List Input), StateInv s → s.input = .ops ((encode cfg i).take n) :: rest →
      step s = .refused .truncatedOp

/-- 60_exceptions.md R214, 93_implementation_defined.md U12: the step faults exactly in a state, under an admitted
configuration, that breaks 10_state.md R30; the fault has one reason. -/
def Obligations.FaultExactlyInBrokenReceiveState : Prop :=
  ∀ s : State, (∃ r, step s = .fault r) ↔ (s.cfg.ok = true ∧ s.rxInv = false)

/-- 10_state.md R32: `tx_out` and `rx_evt` are append-only, and so are the results; a step removes and rewrites no
entry. -/
def Obligations.StreamsAreAppendOnly : Prop :=
  ∀ s t : State, step s = .next t →
    s.txOut <+: t.txOut ∧ s.rxEvt <+: t.rxEvt ∧ s.hostRes <+: t.hostRes ∧ s.lineRes <+: t.lineRes

/-! ### Encodings -/

/-- Decode and encode agree, for every row, every operand and every admitted configuration whose two start markers differ
(30_encoding.md R60, R63, R70, R71, R72). -/
def Obligations.DecodeOfEncodeIsIdentity : Prop :=
  ∀ (cfg : Config) (i : Instr) (rest : List Byte), cfg.ok = true →
    cfg.framing.startShort ≠ cfg.framing.startLong → WellFormed cfg i = true →
    (i.space = .body → rest = []) →
    decodeIn cfg i.space (encode cfg i ++ rest) = .ok (i, rest)

/-- Each byte sequence has one meaning: what a decoder reads is well formed and encodes to the bytes it was read from
(30_encoding.md R60, R63, R70, R72). -/
def Obligations.EncodeOfDecodeIsIdentity : Prop :=
  ∀ (cfg : Config) (sp : Space) (bs rest : List Byte) (i : Instr), cfg.ok = true →
    decodeIn cfg sp bs = .ok (i, rest) →
    i.space = sp ∧ WellFormed cfg i = true ∧ encode cfg i ++ rest = bs

/-- 30_encoding.md R70 and R60: the sizes of the formats N, B, F and P and of the two frame forms. -/
def Obligations.EncodedSizes : Prop :=
  ∀ (cfg : Config) (b c : Byte) (x : Word64) (crc : Word16) (bs : List Byte),
    (∀ i ∈ [Instr.crcClear, .crcRead, .cmdFwVersion, .cmdGetValues], (encode cfg i).length = 1) ∧
    (∀ i ∈ [Instr.crcUpdate b, .rxByte b], (encode cfg i).length = 2) ∧
    (∀ i ∈ [Instr.cmdSetDuty x, .cmdSetCurrent x, .cmdSetBrake x, .cmdSetRpm x, .cmdSetPos x, .cmdSetServo x],
      (encode cfg i).length = 9) ∧
    (encode cfg (.frameEncode c bs)).length = 4 + bs.length ∧
    (encode cfg (.frameShort bs crc b)).length = bs.length + 5 ∧
    (encode cfg (.frameLong bs crc b)).length = bs.length + 6

/-- Words written out from 95_test_vectors.md and 30_encoding.md R71 and R63 decode to the instructions they stand for. -/
def Obligations.SpecWordsDecode : Prop :=
  decodeOp [0x01#8, 0x31#8] = .ok (.crcUpdate 0x31#8, []) ∧
  decodeOp [0x22#8, 0x3F#8, 0xE0#8, 0x00#8, 0x00#8, 0x00#8, 0x00#8, 0x00#8, 0x00#8] =
    .ok (.cmdSetDuty 0x3FE0000000000000#64, []) ∧
  decodeOp [0x10#8, 0x05#8, 0x00#8, 0x04#8, 0x00#8, 0x00#8, 0xC3#8, 0x50#8] =
    .ok (.frameEncode 0x05#8 [0x00#8, 0x00#8, 0xC3#8, 0x50#8], []) ∧
  decodeOp [0x30#8, 0x02#8] = .ok (.rxByte 0x02#8, []) ∧
  decodeOp [0x03#8] = .error (.illegalOp 0x03#8) ∧
  decodeOp [0x10#8, 0x05#8, 0x00#8, 0x04#8, 0x00#8, 0x00#8] = .error .truncated ∧
  decodeFrame Config.default [0x02#8, 0x01#8, 0x04#8, 0x40#8, 0x84#8, 0x03#8] =
    .ok (.frameShort [0x04#8] 0x4084#16 0x03#8, []) ∧
  decodeBody Config.default [0x05#8, 0xFF#8, 0xFF#8, 0x3C#8, 0xB0#8] = .ok (.bodySetDuty (-50000))

/-! ### CRC -/

open Polynomial in
/-- 41_crc16.md section 1: a 16-bit cyclic redundancy check with generator polynomial x^16 + x^12 + x^5 + 1, initial value 0,
data bits most significant bit first: the message times x^16 and the CRC leave the same remainder. The spec's sentence: "The polynomial's expansion into terms is
[from general knowledge, not in source]." -/
def Obligations.CrcIsPolynomialRemainder : Prop :=
  ∀ bs : List Byte,
    (X ^ 16 + X ^ 12 + X ^ 5 + 1 : (ZMod 2)[X]) ∣
      bitsPoly (bitsOf bs) * X ^ 16 - bitsPoly (bitsOf (be16 (crc16 CrcParams.source bs)))

/-- 41_crc16.md R103: CRC.CLEAR, host op 0x00, sets the accumulator to the initial value and returns OK. -/
def Obligations.CrcClearClears : Prop :=
  (∀ tail, decodeOp (0x00#8 :: tail) = .ok (.crcClear, tail)) ∧
  ∀ s : State, s.cfg.crc = CrcParams.source →
    exec .crcClear s = .next { s with crcReg := 0x0000#16, hostRes := s.hostRes ++ [okResult] }

/-- 41_crc16.md R104 and the table form of R102: CRC.UPDATE shifts the accumulator by one byte and adds the table entry of
its high byte and the new byte. The spec marks R102 as derived from R101. -/
def Obligations.CrcUpdateFoldsByte : Prop :=
  ∀ (b : Byte) (s : State), s.cfg.crc = CrcParams.source →
    exec (.crcUpdate b) s = .next { s with
      crcReg := (s.crcReg <<< 8) ^^^ crc16 CrcParams.source [s.crcReg.extractLsb' 8 8 ^^^ b],
      hostRes := s.hostRes ++ [okResult] }

/-- 41_crc16.md R105: CRC.READ, host op 0x02, returns the accumulator and does not change it. -/
def Obligations.CrcReadReturnsRegister : Prop :=
  (∀ tail, decodeOp (0x02#8 :: tail) = .ok (.crcRead, tail)) ∧
  ∀ s : State, s.cfg.crc = CrcParams.source →
    exec .crcRead s = .next { s with hostRes := s.hostRes ++ [⟨.ok, some s.crcReg⟩] }

/-- 41_crc16.md section 2: CRC.CLEAR and then CRC.UPDATE of the bytes of a sequence leave its `crc16` in the accumulator,
whatever was there before. The spec marks R106 as derived from R101, R103 and R104. -/
def Obligations.CrcBlockComputesCrc16 : Prop :=
  ∀ (bs : List Byte) (s : State), s.cfg.crc = CrcParams.source →
    runInstrs (.crcClear :: bs.map .crcUpdate) s = .next { s with
      crcReg := crc16 CrcParams.source bs, hostRes := s.hostRes ++ List.replicate (bs.length + 1) okResult }

/-- 41_crc16.md R102 items 1 and 2 (which the spec marks as derived from R101): zero bytes have CRC 0, and the table's
entries. -/
def Obligations.CrcOfZerosAndTable : Prop :=
  (∀ n, crc16 CrcParams.source (List.replicate n 0x00#8) = 0x0000#16) ∧
  crcStep CrcParams.source 0#16 0x01#8 = 0x1021#16 ∧ crcStep CrcParams.source 0#16 0x02#8 = 0x2042#16 ∧
  crcStep CrcParams.source 0#16 0x03#8 = 0x3063#16 ∧ crcStep CrcParams.source 0#16 0x80#8 = 0x9188#16 ∧
  crcStep CrcParams.source 0#16 0xFF#8 = 0x1EF0#16

/-- 41_crc16.md R102 item 3 (which the spec marks as derived from R101): linearity. -/
def Obligations.CrcIsLinear : Prop :=
  ∀ as bs : List Byte, as.length = bs.length →
    crc16 CrcParams.source (List.zipWith (· ^^^ ·) as bs) = crc16 CrcParams.source as ^^^ crc16 CrcParams.source bs

/-- 41_crc16.md R102 item 4 (which the spec marks as derived from R101): residue. -/
def Obligations.CrcResidueIsZero : Prop :=
  ∀ bs : List Byte, crc16 CrcParams.source (bs ++ be16 (crc16 CrcParams.source bs)) = 0x0000#16

/-- 41_crc16.md R102 item 5 (which the spec marks as derived from R101): changing one bit changes the CRC, for every
length; two flipped bits 32767 positions apart are not detected. -/
def Obligations.CrcDetectsEverySingleBit : Prop :=
  (∀ (bs : List Byte) (j : Nat), j < 8 * bs.length →
    crc16 CrcParams.source (flipBit bs j) ≠ crc16 CrcParams.source bs) ∧
  (∀ (bs : List Byte) (j : Nat), j + 32767 < 8 * bs.length →
    crc16 CrcParams.source (flipBit (flipBit bs j) (j + 32767)) = crc16 CrcParams.source bs)

/-! ### Transmit -/

/-- 42_tx_framer.md R121: FRAME.ENCODE, host op 0x10 in format P, emits the frame of `[cid] ++ payload`, or returns
TX_OVERSIZED and emits nothing. -/
def Obligations.FrameEncodeEmitsFrame : Prop :=
  (∀ (cid : Byte) (payload tail : List Byte), payload.length ≤ 65535 →
    decodeOp ([0x10#8, cid] ++ be16 (BitVec.ofNat 16 payload.length) ++ payload ++ tail) =
      .ok (.frameEncode cid payload, tail)) ∧
  ∀ (cid : Byte) (payload : List Byte) (s : State), SourceWire s.cfg →
    (payload.length + 1 ≤ s.cfg.maxLen →
      exec (.frameEncode cid payload) s = .next (emitted s (cid :: payload))) ∧
    (s.cfg.maxLen < payload.length + 1 →
      exec (.frameEncode cid payload) s = .next (returned s .txOversized))

/-- 42_tx_framer.md section 3: the shape of every frame `make_frame` answers. The spec marks R122 as derived from R120,
R121 and R102. -/
def Obligations.FrameShape : Prop :=
  ∀ (cfg : Config) (body f : List Byte), SourceWire cfg → cfg.ok = true → makeFrame cfg body = .ok f →
    f.length = (if body.length ≤ 255 then body.length + 5 else body.length + 6) ∧
    (f.head? = some 0x02#8 ∨ f.head? = some 0x03#8) ∧ f.getLast? = some 0x03#8 ∧
    (f.drop (f.length - body.length - 3)).take body.length = body ∧
    crc16 CrcParams.source ((f.drop (f.length - body.length - 3)).take (body.length + 2)) = 0x0000#16

/-- 43_command_encoder.md R150 and R151: the two requests, host ops 0x20 and 0x21, send a body of their cmdId alone; TX_OVERSIZED only with
`MAX_LEN` = 0. -/
def Obligations.RequestsSendTheirId : Prop :=
  (∀ tail, decodeOp (0x20#8 :: tail) = .ok (.cmdFwVersion, tail) ∧
    decodeOp (0x21#8 :: tail) = .ok (.cmdGetValues, tail)) ∧
  ∀ s : State, SourceWire s.cfg →
    (1 ≤ s.cfg.maxLen →
      exec .cmdFwVersion s = .next (emitted s [s.cfg.fwVersionId]) ∧
      exec .cmdGetValues s = .next (emitted s [s.cfg.getValuesId])) ∧
    (s.cfg.maxLen = 0 →
      exec .cmdFwVersion s = .next (returned s .txOversized) ∧
      exec .cmdGetValues s = .next (returned s .txOversized))

/-- 43_command_encoder.md R146, R152 to R157: a setting command whose argument passes every check emits the frame of its
cmdId and the big-endian two's-complement argument. -/
def Obligations.SettingCommandsSend : Prop :=
  SendsScaled .cmdSetDuty Config.duty ∧ SendsScaled .cmdSetCurrent Config.current ∧
  SendsScaled .cmdSetBrake Config.brake ∧ SendsScaled .cmdSetRpm Config.rpm ∧
  SendsScaled .cmdSetPos Config.pos ∧ SendsScaled .cmdSetServo Config.servo

/-- 60_exceptions.md R210: the first failing check's code is returned, only that code, and nothing is emitted; FRAME.ENCODE
has only the last check. -/
def Obligations.SettingCommandsRaiseInOrder : Prop :=
  RaisesInOrder .cmdSetDuty Config.duty ∧ RaisesInOrder .cmdSetCurrent Config.current ∧
  RaisesInOrder .cmdSetBrake Config.brake ∧ RaisesInOrder .cmdSetRpm Config.rpm ∧
  RaisesInOrder .cmdSetPos Config.pos ∧ RaisesInOrder .cmdSetServo Config.servo ∧
  ∀ (cid : Byte) (payload : List Byte) (s : State),
    (s.cfg.maxLen < payload.length + 1 → exec (.frameEncode cid payload) s = .next (returned s .txOversized)) ∧
    (payload.length + 1 ≤ s.cfg.maxLen →
      ∃ t, exec (.frameEncode cid payload) s = .next t ∧ t.hostRes = s.hostRes ++ [okResult])

/-- The model's choice (log 9): a BODY row frames and sends its body, as the last part of 43_command_encoder.md R146
does with the bodies of 30_encoding.md R63. -/
def Obligations.BodyRowsSend : Prop :=
  (∀ s : State, SourceWire s.cfg →
    (1 ≤ s.cfg.maxLen →
      exec .bodyFwVersion s = .next (emitted s [s.cfg.fwVersionId]) ∧
      exec .bodyGetValues s = .next (emitted s [s.cfg.getValuesId])) ∧
    (s.cfg.maxLen = 0 →
      exec .bodyFwVersion s = .next (returned s .txOversized) ∧
      exec .bodyGetValues s = .next (returned s .txOversized))) ∧
  SendsBody .bodySetDuty Config.duty ∧ SendsBody .bodySetCurrent Config.current ∧
  SendsBody .bodySetBrake Config.brake ∧ SendsBody .bodySetRpm Config.rpm ∧
  SendsBody .bodySetPos Config.pos ∧ SendsBody .bodySetServo Config.servo

/-- 30_encoding.md R78: a CMD.* operation whose argument is accepted has the same effect as FRAME.ENCODE of its cmdId and
argument bytes. -/
def Obligations.CommandsEqualFrameEncode : Prop :=
  ∀ (s : State) (x : Word64) (q : Int),
    exec .cmdFwVersion s = exec (.frameEncode s.cfg.fwVersionId []) s ∧
    exec .cmdGetValues s = exec (.frameEncode s.cfg.getValuesId []) s ∧
    ∀ mk prm, (mk, prm) ∈ [(Instr.cmdSetDuty, s.cfg.duty), (.cmdSetCurrent, s.cfg.current),
        (.cmdSetBrake, s.cfg.brake), (.cmdSetRpm, s.cfg.rpm), (.cmdSetPos, s.cfg.pos), (.cmdSetServo, s.cfg.servo)] →
      fxEncode s.cfg.product s.cfg.tie prm x = .ok q →
      exec (mk x) s = exec (.frameEncode prm.cmdId (argBytes prm.width q)) s

/-! ### Fixed point -/

/-- 00_scope.md section 5: `val64` of a finite pattern is the real value of the IEEE 754 binary64 format, which the spec
marks "from general knowledge, not in source". -/
def Obligations.Val64IsIeeeValue : Prop :=
  ∀ x : Word64, finite64 x = true →
    realValue x = (if x.getMsbD 0 then -1 else 1) *
      (if (x.extractLsb' 52 11).toNat = 0 then ((x.extractLsb' 0 52).toNat : ℚ) * (2 : ℚ) ^ (-1074 : ℤ)
        else ((2 : ℚ) ^ 52 + ((x.extractLsb' 0 52).toNat : ℚ)) *
          (2 : ℚ) ^ (((x.extractLsb' 52 11).toNat : ℤ) - 1075))

/-- 00_scope.md section 5: `fl64(r)` is the binary64 value nearest r, ties to the value with an even fraction, and infinity
when |r| is at least 2^1024 − 2^970, which the spec marks "from general knowledge, not in source". Reals are held in units of
2^-1074 (log 19). -/
def Obligations.Fl64IsNearestEven : Prop :=
  ∀ r : Int,
    (fl64 r = none ↔ (2 ^ 1024 - 2 ^ 970) * 2 ^ 1074 ≤ r.natAbs) ∧
    ∀ m, fl64 r = some m →
      (∃ x, finite64 x = true ∧ val64 x = m) ∧
      (∀ y, finite64 y = true → (r - m).natAbs ≤ (r - val64 y).natAbs) ∧
      (∀ x y, finite64 x = true → val64 x = m → finite64 y = true → val64 y ≠ m →
        (r - m).natAbs = (r - val64 y).natAbs → frac64 x % 2 = 0)

/-- 43_command_encoder.md R142: to the nearest integer, a value exactly halfway away from zero, with the rule's examples. -/
def Obligations.RoundingIsNearestTiesAway : Prop :=
  (∀ p : Int,
    2 * (p - roundHalfAway p * 2 ^ 1074).natAbs ≤ 2 ^ 1074 ∧
    (2 * (p - roundHalfAway p * 2 ^ 1074).natAbs = 2 ^ 1074 →
      p.natAbs < (roundHalfAway p * 2 ^ 1074).natAbs)) ∧
  (∀ h q : Int, (h, q) ∈ [((3125 : Int), (1563 : Int)), (-3125, -1563), (1, 1), (-1, -1), (5, 3)] →
    roundHalfAway (h * 2 ^ 1073) = q)

/-- 43_command_encoder.md R140: `fx_encode` with the binary64 product and ties away: the checks in their order, and the
value. -/
def Obligations.FxEncodeFollowsItsChecks : Prop :=
  ∀ (p : CmdParams) (x : Word64),
    let inDom := p.domain = .allFinite ∨
      ∃ lo hi : Int, p.domain = .closed lo hi ∧ (lo : ℚ) ≤ realValue x ∧ realValue x ≤ (hi : ℚ)
    let result := fxEncode .binary64 .awayFromZero p x
    (finite64 x = false → result = .error .argNotFinite) ∧
    (finite64 x = true → ¬ inDom → result = .error .argRange) ∧
    (finite64 x = true → inDom → fl64 (val64 x * p.scale) = none → result = .error .argRange) ∧
    ∀ r, finite64 x = true → inDom → fl64 (val64 x * p.scale) = some r →
      (roundHalfAway r < -(2 : Int) ^ (8 * p.width - 1) ∨ (2 : Int) ^ (8 * p.width - 1) - 1 < roundHalfAway r →
        result = .error .argRange) ∧
      (-(2 : Int) ^ (8 * p.width - 1) ≤ roundHalfAway r → roundHalfAway r ≤ (2 : Int) ^ (8 * p.width - 1) - 1 →
        result = .ok (roundHalfAway r))

/-- 43_command_encoder.md R144, last sentence: with the default parameters an in-domain duty or servo argument never fails
the width check. -/
def Obligations.DutyAndServoAlwaysFit : Prop :=
  ∀ x : Word64, finite64 x = true →
    (-1 ≤ realValue x → realValue x ≤ 1 →
      ∃ q, fxEncode .binary64 .awayFromZero Config.default.duty x = .ok q ∧ -100000 ≤ q ∧ q ≤ 100000) ∧
    (0 ≤ realValue x → realValue x ≤ 1 →
      ∃ q, fxEncode .binary64 .awayFromZero Config.default.servo x = .ok q ∧ 0 ≤ q ∧ q ≤ 1000)

/-- 43_command_encoder.md R147: a fixed-point-representable argument comes back exactly, and any accepted argument within
the stated bound. -/
def Obligations.FixedPointRoundTrip : Prop :=
  ∀ (p : CmdParams) (x : Word64) (q : Int), p.ok = true → finite64 x = true →
    (inDomain p.domain (val64 x) = true → realValue x * p.scale = q → inWidth p.width q = true →
      fxEncode .binary64 .awayFromZero p x = .ok q ∧ fxDecode q p.scale = realValue x) ∧
    (∀ r, fxEncode .binary64 .awayFromZero p x = .ok q → fl64 (val64 x * p.scale) = some r →
      |fxDecode q p.scale - realValue x| ≤
        (1 / 2 + |(r : ℚ) / 2 ^ 1074 - realValue x * p.scale|) / p.scale)

/-- 92_eei_decisions.md D8, the spec's own decision: the rounding is symmetric in sign, so −x encodes to −q (where −q fits the width). -/
def Obligations.NegatedArgumentEncodesNegated : Prop :=
  ∀ (p : CmdParams) (x : Word64) (q : Int), p.domain = .allFinite →
    fxEncode .binary64 .awayFromZero p x = .ok q → inWidth p.width (-q) = true →
    fxEncode .binary64 .awayFromZero p (x ^^^ 0x8000000000000000#64) = .ok (-q)

/-! ### Receive -/

/-- 44_rx_deframer.md R171: RX.BYTE has exactly one outcome in every state and for every byte and posts at most one event;
it returns OK and touches nothing of the host side (10_state.md R34). -/
def Obligations.RxByteIsTotal : Prop :=
  ∀ (b : Byte) (s : State), ∃ t, exec (.rxByte b) s = .next t ∧
    (t.rxEvt = s.rxEvt ∨ ∃ e, t.rxEvt = s.rxEvt ++ [e]) ∧ t.lineRes = s.lineRes ++ [okResult] ∧
    SameHostSide s t ∧ t.cfg = s.cfg ∧ t.input = s.input

/-- 44_rx_deframer.md R172: `SEEKING`. -/
def Obligations.RxSeekingTakesStartMarkers : Prop :=
  ∀ (b : Byte) (s : State), s.cfg.framing = FramingParams.source → s.rxState = .seeking →
    exec (.rxByte b) s = .next
      (if b = 0x02#8 then
        { s with rxForm := .short, rxLen := 0#16, rxCnt := 0#16, rxState := .readLen, lineRes := s.lineRes ++ [okResult] }
      else if b = 0x03#8 then
        { s with rxForm := .long, rxLen := 0#16, rxCnt := 0#16, rxState := .readLen, lineRes := s.lineRes ++ [okResult] }
      else { s with lineRes := s.lineRes ++ [okResult] })

/-- 44_rx_deframer.md R173: `READ_LEN`, for a state that meets the invariant: the long form's first
byte, and the byte that completes the length field. -/
def Obligations.RxReadLenAccumulatesLength : Prop :=
  ∀ (b : Byte) (s : State), s.rxInv = true → s.rxState = .readLen →
    (s.rxForm = .long → s.rxCnt = 0#16 →
      exec (.rxByte b) s = .next
        { s with rxLen := BitVec.ofNat 16 (256 * b.toNat), rxCnt := 1#16, lineRes := s.lineRes ++ [okResult] }) ∧
    ∀ n : Nat, ((s.rxForm = .short ∧ n = b.toNat) ∨ (s.rxForm = .long ∧ s.rxCnt = 1#16 ∧ n = s.rxLen.toNat + b.toNat)) →
      (s.cfg.maxLen < n → exec (.rxByte b) s = .next
        { s with rxLen := BitVec.ofNat 16 n, rxCnt := 0#16, rxState := .seeking,
                 rxEvt := s.rxEvt ++ [.oversizedFrame], lineRes := s.lineRes ++ [okResult] }) ∧
      (n ≤ s.cfg.maxLen → n = 0 → exec (.rxByte b) s = .next
        { s with rxLen := 0#16, rxCnt := 0#16, rxBody := [], rxState := .readCrc,
                 lineRes := s.lineRes ++ [okResult] }) ∧
      (n ≤ s.cfg.maxLen → n ≠ 0 → exec (.rxByte b) s = .next
        { s with rxLen := BitVec.ofNat 16 n, rxCnt := 0#16, rxBody := [], rxState := .readBody,
                 lineRes := s.lineRes ++ [okResult] })

/-- 44_rx_deframer.md R174: `READ_BODY`, for a state that meets the invariant. -/
def Obligations.RxReadBodyAppendsByte : Prop :=
  ∀ (b : Byte) (s : State), s.rxInv = true → s.rxState = .readBody →
    exec (.rxByte b) s = .next
      (if s.rxBody.length + 1 = s.rxLen.toNat then
        { s with rxBody := s.rxBody ++ [b], rxCnt := 0#16, rxState := .readCrc, lineRes := s.lineRes ++ [okResult] }
      else
        { s with rxBody := s.rxBody ++ [b], rxCnt := BitVec.ofNat 16 (s.rxBody.length + 1),
                 lineRes := s.lineRes ++ [okResult] })

/-- 44_rx_deframer.md R175: `READ_CRC`, for a state that meets the invariant. -/
def Obligations.RxReadCrcTakesTwoBytes : Prop :=
  ∀ (b : Byte) (s : State), s.rxInv = true → s.rxState = .readCrc →
    (s.rxCnt = 0#16 → exec (.rxByte b) s = .next
      { s with rxCrc := BitVec.ofNat 16 (256 * b.toNat), rxCnt := 1#16, lineRes := s.lineRes ++ [okResult] }) ∧
    (s.rxCnt = 1#16 → exec (.rxByte b) s = .next
      { s with rxCrc := BitVec.ofNat 16 (s.rxCrc.toNat + b.toNat), rxCnt := 0#16, rxState := .readEnd,
               lineRes := s.lineRes ++ [okResult] })

/-- 44_rx_deframer.md R176: `READ_END`: the end marker first, the checksum only after it. -/
def Obligations.RxReadEndPostsOneEvent : Prop :=
  ∀ (b : Byte) (s : State), SourceWire s.cfg → s.rxState = .readEnd →
    exec (.rxByte b) s = .next
      { s with rxState := .seeking, rxEvt := s.rxEvt ++ [frameEvent s.rxBody s.rxCrc b],
               lineRes := s.lineRes ++ [okResult] }

/-- 44_rx_deframer.md section 3: after a posted event, and after a discarded byte, the state is `SEEKING`; only 0x02 and
0x03 leave it. The spec marks R182 as derived from R172 to R176. -/
def Obligations.RxErrorsReturnToSeeking : Prop :=
  ∀ (b : Byte) (s t : State), s.cfg.framing = FramingParams.source → exec (.rxByte b) s = .next t →
    (t.rxEvt ≠ s.rxEvt → t.rxState = .seeking) ∧
    (s.rxState = .seeking → (t.rxState ≠ .seeking ↔ (b = 0x02#8 ∨ b = 0x03#8)))

/-- The model's choice (log 8): a frame row is the arrival of the frame's bytes (30_encoding.md R60), one step for each
(10_state.md R21, 20_memory.md R46): the first is RX.BYTE of the row's start marker, the others stay presented, and
from a state that meets the invariant as many steps as there are others reach the state that RX.BYTE of all the bytes, in
order, reaches. -/
def Obligations.FrameRowsAreByteSequences : Prop :=
  ∀ (s : State) (i : Instr), ((∃ body crc last, i = .frameShort body crc last) ∨
      (∃ body crc last, i = .frameLong body crc last)) →
    ∃ b tail u t, encode s.cfg i = b :: tail ∧
      exec i s = .next u ∧ exec (.rxByte b) { s with input := .line tail :: s.input } = .next u ∧
      feed (encode s.cfg i) s = .next t ∧
      (StateInv s → Host.Core.run Sys2Proof.core tail.length u = .next t)

/-- 44_rx_deframer.md R170, R176, R178: a whole short or long frame received from `SEEKING`, its length admitted by
`MAX_LEN`: the registers it leaves and the one event it posts. That a FRAME row is an instruction, which takes the start
marker and leaves the other bytes presented, is the model's choice (log 8). -/
def Obligations.WholeFrameReceived : Prop :=
  ∀ (body : List Byte) (crc : Word16) (last : Byte) (s : State), SourceWire s.cfg → s.rxState = .seeking →
    body.length ≤ s.cfg.maxLen →
    (body.length ≤ 255 →
      exec (.frameShort body crc last) s =
        .next (arriving s .short ((encode s.cfg (.frameShort body crc last)).drop 1)) ∧
      feed (encode s.cfg (.frameShort body crc last)) s =
        .next (received s .short body crc (frameEvent body crc last) (body.length + 5))) ∧
    (body.length ≤ 65535 →
      exec (.frameLong body crc last) s =
        .next (arriving s .long ((encode s.cfg (.frameLong body crc last)).drop 1)) ∧
      feed (encode s.cfg (.frameLong body crc last)) s =
        .next (received s .long body crc (frameEvent body crc last) (body.length + 6)))

/-- 44_rx_deframer.md section 3: round trip of `make_frame` and the deframer. The spec marks R179 as derived from R170 to
R177. -/
def Obligations.FrameRoundTrip : Prop :=
  ∀ (body f : List Byte) (s : State), SourceWire s.cfg → s.cfg.ok = true → s.rxState = .seeking →
    makeFrame s.cfg body = .ok f →
    (∀ k, k < f.length → ∃ t, feed (f.take k) s = .next t ∧ t.rxEvt = s.rxEvt) ∧
    ∃ t, feed f s = .next t ∧ t.rxEvt = s.rxEvt ++ [.frameOk body] ∧ t.rxState = .seeking

/-- 44_rx_deframer.md section 3: one flipped bit in the body or the CRC field gives exactly CHECKSUM_ERROR, at the last
byte. The spec marks R180 as derived from R170 to R177 and R102. -/
def Obligations.SingleBitCorruptionDetected : Prop :=
  ∀ (body f : List Byte) (j : Nat) (s : State), SourceWire s.cfg → s.cfg.ok = true → s.rxState = .seeking →
    makeFrame s.cfg body = .ok f → 8 * (f.length - body.length - 3) ≤ j → j < 8 * (f.length - 1) →
    (∀ k, k < f.length → ∃ t, feed ((flipBit f j).take k) s = .next t ∧ t.rxEvt = s.rxEvt) ∧
    ∃ t, feed (flipBit f j) s = .next t ∧ t.rxEvt = s.rxEvt ++ [.checksumError] ∧ t.rxState = .seeking

/-- 44_rx_deframer.md section 3: within `MAX_LEN` + 5 further bytes the receive path has been in `SEEKING`. The spec marks
R181 (a) as derived from R172 to R176. -/
def Obligations.RxReturnsToSeekingInTime : Prop :=
  ∀ (bs : List Byte) (s : State), s.rxInv = true → bs.length = s.cfg.maxLen + 5 →
    ∃ k t, k ≤ bs.length ∧ feed (bs.take k) s = .next t ∧ t.rxState = .seeking

/-- 44_rx_deframer.md section 3: garbage without 0x02 and 0x03 is discarded and the frame after it delivered; with them, a
valid frame can be swallowed. The spec marks R181 (b), (c), (d) as derived from R172 to R176. -/
def Obligations.ResynchronisationAfterGarbage : Prop :=
  (∀ (g body f : List Byte) (s : State), SourceWire s.cfg → s.cfg.ok = true → s.rxState = .seeking →
    (∀ b ∈ g, b ≠ 0x02#8 ∧ b ≠ 0x03#8) → makeFrame s.cfg body = .ok f →
    (∃ t, feed g s = .next t ∧ t.rxEvt = s.rxEvt ∧ t.rxState = .seeking) ∧
    ∃ t, feed (g ++ f) s = .next t ∧ t.rxEvt = s.rxEvt ++ [.frameOk body] ∧ t.rxState = .seeking) ∧
  (∃ t, feed [0x02#8, 0xFF#8, 0x02#8, 0x05#8, 0x05#8, 0x00#8, 0x00#8, 0xC3#8, 0x50#8, 0x3A#8, 0xA5#8, 0x03#8] State.reset =
      .next t ∧ t.rxEvt = [] ∧ t.rxState = .readBody ∧ t.rxLen = 255#16 ∧ t.rxBody.length = 10)

/-- 60_exceptions.md R203, last sentence: OVERSIZED_FRAME cannot occur with `MAX_LEN` = 65535. -/
def Obligations.NoOversizedFrameAtDefaultLimit : Prop :=
  ∀ s t : State, s.cfg.maxLen = 65535 → step s = .next t →
    t.rxEvt.count .oversizedFrame = s.rxEvt.count .oversizedFrame

/-- 10_state.md R21: each received byte is one step, whatever the chunk it stands in has the layout of: the step that finds
a line chunk takes the chunk's first byte as one RX.BYTE and leaves the others presented, in order. That a chunk may run a
FRAME row and be split in two where that frame ends is the model's choice (log 8, 11). -/
def Obligations.StepTakesOneLineByte : Prop :=
  ∀ (s : State) (b : Byte) (bs : List Byte) (rest : List Input), StateInv s → s.input = .line (b :: bs) :: rest →
    ∃ (t : State) (chunks : List (List Byte)), step s = .next t ∧
      t.input = chunks.map .line ++ rest ∧ chunks.flatten = bs ∧ (∀ c ∈ chunks, c ≠ []) ∧
      exec (.rxByte b) { s with input := t.input } = .next t

/-- 20_memory.md R46: a chunk the line presents is as many RX.BYTE steps as it has bytes, in order. That a chunk may run a
FRAME row is the model's choice (log 8, 11). -/
def Obligations.LineChunkIsByteSequence : Prop :=
  ∀ (s : State) (bs : List Byte) (rest : List Input), StateInv s → bs ≠ [] → s.input = .line bs :: rest →
    ∃ t : State, Host.Core.run Sys2Proof.core bs.length s = .next t ∧ feed bs { s with input := rest } = .next t

/-! ### The two sides -/

/-- 20_memory.md section 5: every interleaving of the two ports' operations gives the same result as the host's operations
followed by the line's. The spec marks R52 as derived from R34 and R9. R52 speaks of host operations and RX.BYTE; that the
FRAME rows act on the receive port and the BODY rows on the host port is the model's choice (log 8, 9). -/
def Obligations.InterleavingIsIrrelevant : Prop :=
  ∀ (is : List Instr) (s : State), ∃ t, runInstrs is s = .next t ∧
    runInstrs (is.filter (fun i => !onLine i) ++ is.filter onLine) s = .next t

/-- 10_state.md R34, R23: a host-port operation leaves the line side, the parameters and what is presented; a receive-port
operation leaves the host side; only CRC.CLEAR and CRC.UPDATE write `crc_reg`. On which port the FRAME and BODY rows act,
and that a FRAME row leaves its frame's other bytes presented, is the model's choice (log 8, 9). -/
def Obligations.PortsShareNoState : Prop :=
  ∀ (i : Instr) (s t : State), exec i s = .next t →
    t.cfg = s.cfg ∧
    t.input = (if i.space = .frame then .line ((encode s.cfg i).drop 1) :: s.input else s.input) ∧
    (onLine i = false → SameLineSide s t) ∧ (onLine i = true → SameHostSide s t) ∧
    (i ≠ .crcClear → (∀ b, i ≠ .crcUpdate b) → t.crcReg = s.crcReg)

/-- 20_memory.md R47: a transmit operation emits exactly one whole frame of a non-empty body and
returns OK, or emits nothing, changes nothing else and returns an error; CRC.* and the receive port never emit. R47 speaks
of FRAME.ENCODE and CMD.*; that the eight BODY rows send too, in the same way, is the model's choice (log 9), and that the
FRAME rows act on the receive port is log 8. -/
def Obligations.TransmitIsAtomic : Prop :=
  ∀ (i : Instr) (s t : State), exec i s = .next t →
    (onLine i = true → t.txOut = s.txOut) ∧
    ((i = .crcClear ∨ (∃ b, i = .crcUpdate b) ∨ i = .crcRead) → t.txOut = s.txOut) ∧
    ((onLine i = false ∧ i ≠ .crcClear ∧ (∀ b, i ≠ .crcUpdate b) ∧ i ≠ .crcRead) →
      (∃ body f, body ≠ [] ∧ makeFrame s.cfg body = .ok f ∧
        t = { s with txOut := s.txOut ++ [f], hostRes := s.hostRes ++ [okResult] }) ∨
      (∃ code, code ≠ .ok ∧ t = returned s code))

/-- 60_exceptions.md R200: every host operation returns exactly one result code, one of those its table lists for it.
30_encoding.md section 6 says that the BODY rows are no host operations; that they return a result on the host port, as
their body's framing does, is the model's choice (log 9). -/
def Obligations.ResultCodesOfOperations : Prop :=
  ∀ (i : Instr) (s : State), onLine i = false → ∃ t r, exec i s = .next t ∧ t.hostRes = s.hostRes ++ [r] ∧
    ((i = .crcClear ∨ (∃ b, i = .crcUpdate b) ∨ i = .crcRead) → r.code = .ok) ∧
    (r.code = .argNotFinite ∨ r.code = .argRange →
      ∃ x, i = .cmdSetDuty x ∨ i = .cmdSetCurrent x ∨ i = .cmdSetBrake x ∨ i = .cmdSetRpm x ∨ i = .cmdSetPos x ∨
        i = .cmdSetServo x) ∧
    r.code ≠ .illegalOp

/-- 60_exceptions.md R201, and the numbers of R200's table: the serialised forms of the events, the codes of the results. -/
def Obligations.CodeNumbersAndEventForms : Prop :=
  [ResultCode.ok, .argNotFinite, .argRange, .txOversized, .illegalOp].map ResultCode.number =
    [0x00#8, 0x01#8, 0x02#8, 0x03#8, 0x04#8] ∧
  (∀ body : List Byte, (Event.frameOk body).serialised = 0x00#8 :: be16 (BitVec.ofNat 16 body.length) ++ body) ∧
  Event.checksumError.serialised = [0x01#8] ∧ Event.oversizedFrame.serialised = [0x02#8] ∧
  Event.invalidEndMarker.serialised = [0x03#8]
end

