-- ==== Sys2Proof/Laws/Bytes.lean ====
section
/-! SUPPORT. Small lemmas of the byte-order functions and of `pow2`. -/

namespace Sys2Proof

@[simp] theorem be16_length (v : Word16) : (be16 v).length = 2 := rfl
@[simp] theorem be32_length (v : BitVec 32) : (be32 v).length = 4 := rfl
@[simp] theorem be64_length (v : Word64) : (be64 v).length = 8 := rfl

/-- The bits of a 16-bit integer made of two bytes. -/
theorem word16_bit (a b : Byte) (i : Nat) :
    (word16 a b).getLsbD i = if i < 8 then b.getLsbD i else a.getLsbD (i - 8) := by
  by_cases h : i < 8
  · simp [word16, h, show i < 16 by omega]
  · by_cases h' : i < 16
    · simp [word16, h, h', show 8 ≤ i by omega]
    · simp [word16, h, h', show 8 ≤ i - 8 by omega]

/-- The bits of a 32-bit integer made of four bytes. -/
theorem word32_bit (a b c d : Byte) (i : Nat) :
    (word32 a b c d).getLsbD i = if i < 16 then (word16 c d).getLsbD i else (word16 a b).getLsbD (i - 16) := by
  by_cases h : i < 16
  · simp [word32, h, show i < 32 by omega]
  · by_cases h' : i < 32
    · simp [word32, h, h', show 16 ≤ i by omega]
    · simp [word32, h, h', show 16 ≤ i - 16 by omega]

/-- The bits of a 64-bit integer made of eight bytes. -/
theorem word64_bit (a b c d e f g h : Byte) (i : Nat) :
    (word64 a b c d e f g h).getLsbD i =
      if i < 32 then (word32 e f g h).getLsbD i else (word32 a b c d).getLsbD (i - 32) := by
  by_cases hi : i < 32
  · simp [word64, hi, show i < 64 by omega]
  · by_cases h' : i < 64
    · simp [word64, hi, h', show 32 ≤ i by omega]
    · simp [word64, hi, h', show 32 ≤ i - 32 by omega]

/-- Taking the two bytes of a 16-bit integer apart and together gives it back. -/
@[simp] theorem word16_of_bytes (v : Word16) : word16 (v.extractLsb' 8 8) (v.extractLsb' 0 8) = v := by
  apply BitVec.eq_of_getLsbD_eq
  intro i hi
  grind [word16_bit]

@[simp] theorem word16_hi (a b : Byte) : (word16 a b).extractLsb' 8 8 = a := by
  apply BitVec.eq_of_getLsbD_eq
  intro i hi
  grind [word16_bit]

@[simp] theorem word16_lo (a b : Byte) : (word16 a b).extractLsb' 0 8 = b := by
  apply BitVec.eq_of_getLsbD_eq
  intro i hi
  grind [word16_bit]

@[simp] theorem be16_word16 (a b : Byte) : be16 (word16 a b) = [a, b] := by
  simp [be16]

/-- Taking the four bytes of a 32-bit integer apart and together gives it back. -/
@[simp] theorem word32_of_bytes (v : BitVec 32) :
    word32 (v.extractLsb' 24 8) (v.extractLsb' 16 8) (v.extractLsb' 8 8) (v.extractLsb' 0 8) = v := by
  apply BitVec.eq_of_getLsbD_eq
  intro i hi
  grind [word32_bit, word16_bit]

/-- A byte of an integer is the one it was made of. -/
theorem word32_bytes (a b c d : Byte) :
    (word32 a b c d).extractLsb' 24 8 = a ∧ (word32 a b c d).extractLsb' 16 8 = b ∧
      (word32 a b c d).extractLsb' 8 8 = c ∧ (word32 a b c d).extractLsb' 0 8 = d := by
  refine ⟨?_, ?_, ?_, ?_⟩ <;> apply BitVec.eq_of_getLsbD_eq <;> intro i hi <;>
    grind [word32_bit, word16_bit]

@[simp] theorem be32_word32 (a b c d : Byte) : be32 (word32 a b c d) = [a, b, c, d] := by
  simp [be32, word32_bytes]

/-- Taking the eight bytes of a binary64 pattern apart and together gives it back. -/
@[simp] theorem word64_of_bytes (v : Word64) :
    word64 (v.extractLsb' 56 8) (v.extractLsb' 48 8) (v.extractLsb' 40 8) (v.extractLsb' 32 8)
      (v.extractLsb' 24 8) (v.extractLsb' 16 8) (v.extractLsb' 8 8) (v.extractLsb' 0 8) = v := by
  apply BitVec.eq_of_getLsbD_eq
  intro i hi
  grind [word64_bit, word32_bit, word16_bit]

@[simp] theorem be64_word64 (a b c d e f g h : Byte) : be64 (word64 a b c d e f g h) = [a, b, c, d, e, f, g, h] := by
  simp only [be64, List.cons.injEq, and_true]
  refine ⟨?_, ?_, ?_, ?_, ?_, ?_, ?_, ?_⟩ <;> apply BitVec.eq_of_getLsbD_eq <;> intro i hi <;>
    grind [word64_bit, word32_bit, word16_bit]

theorem pow2_eq (k : Nat) : pow2 k = 2 ^ k := by
  unfold pow2
  rw [← pow_mul, ← pow_add, Nat.div_add_mod]

theorem unit64_pos : 0 < unit64 := by
  unfold unit64
  rw [pow2_eq]
  positivity

@[simp] theorem padTo_length (n : Nat) (bs : List Byte) : (padTo n bs).length = n := by
  simp [padTo]
  omega

end Sys2Proof
end

