-- ==== Sys2Proof/Laws/State.lean ====
section
/-! SUPPORT. One lemma for each field and each update of the state: what an output primitive, an error or a reset writes,
and that it leaves every other field alone (00_scope.md R6, R7; 70_reset_and_hazards.md R230). -/

namespace Sys2Proof.Machine

@[simp] theorem State.emit_cfg (f : List Byte) (s : State) : (s.emit f).cfg = s.cfg := rfl
@[simp] theorem State.emit_crcReg (f : List Byte) (s : State) : (s.emit f).crcReg = s.crcReg := rfl
@[simp] theorem State.emit_rxState (f : List Byte) (s : State) : (s.emit f).rxState = s.rxState := rfl
@[simp] theorem State.emit_rxForm (f : List Byte) (s : State) : (s.emit f).rxForm = s.rxForm := rfl
@[simp] theorem State.emit_rxLen (f : List Byte) (s : State) : (s.emit f).rxLen = s.rxLen := rfl
@[simp] theorem State.emit_rxCnt (f : List Byte) (s : State) : (s.emit f).rxCnt = s.rxCnt := rfl
@[simp] theorem State.emit_rxBody (f : List Byte) (s : State) : (s.emit f).rxBody = s.rxBody := rfl
@[simp] theorem State.emit_rxCrc (f : List Byte) (s : State) : (s.emit f).rxCrc = s.rxCrc := rfl
@[simp] theorem State.emit_txOut (f : List Byte) (s : State) : (s.emit f).txOut = s.txOut ++ [f] := rfl
@[simp] theorem State.emit_rxEvt (f : List Byte) (s : State) : (s.emit f).rxEvt = s.rxEvt := rfl
@[simp] theorem State.emit_hostRes (f : List Byte) (s : State) : (s.emit f).hostRes = s.hostRes := rfl
@[simp] theorem State.emit_lineRes (f : List Byte) (s : State) : (s.emit f).lineRes = s.lineRes := rfl
@[simp] theorem State.emit_input (f : List Byte) (s : State) : (s.emit f).input = s.input := rfl

@[simp] theorem State.post_cfg (e : Event) (s : State) : (s.post e).cfg = s.cfg := rfl
@[simp] theorem State.post_crcReg (e : Event) (s : State) : (s.post e).crcReg = s.crcReg := rfl
@[simp] theorem State.post_rxState (e : Event) (s : State) : (s.post e).rxState = s.rxState := rfl
@[simp] theorem State.post_rxForm (e : Event) (s : State) : (s.post e).rxForm = s.rxForm := rfl
@[simp] theorem State.post_rxLen (e : Event) (s : State) : (s.post e).rxLen = s.rxLen := rfl
@[simp] theorem State.post_rxCnt (e : Event) (s : State) : (s.post e).rxCnt = s.rxCnt := rfl
@[simp] theorem State.post_rxBody (e : Event) (s : State) : (s.post e).rxBody = s.rxBody := rfl
@[simp] theorem State.post_rxCrc (e : Event) (s : State) : (s.post e).rxCrc = s.rxCrc := rfl
@[simp] theorem State.post_txOut (e : Event) (s : State) : (s.post e).txOut = s.txOut := rfl
@[simp] theorem State.post_rxEvt (e : Event) (s : State) : (s.post e).rxEvt = s.rxEvt ++ [e] := rfl
@[simp] theorem State.post_hostRes (e : Event) (s : State) : (s.post e).hostRes = s.hostRes := rfl
@[simp] theorem State.post_lineRes (e : Event) (s : State) : (s.post e).lineRes = s.lineRes := rfl
@[simp] theorem State.post_input (e : Event) (s : State) : (s.post e).input = s.input := rfl

@[simp] theorem State.hostResult_cfg (code : ResultCode) (data : Option Word16) (s : State) : (s.hostResult code data).cfg = s.cfg := rfl
@[simp] theorem State.hostResult_crcReg (code : ResultCode) (data : Option Word16) (s : State) : (s.hostResult code data).crcReg = s.crcReg := rfl
@[simp] theorem State.hostResult_rxState (code : ResultCode) (data : Option Word16) (s : State) : (s.hostResult code data).rxState = s.rxState := rfl
@[simp] theorem State.hostResult_rxForm (code : ResultCode) (data : Option Word16) (s : State) : (s.hostResult code data).rxForm = s.rxForm := rfl
@[simp] theorem State.hostResult_rxLen (code : ResultCode) (data : Option Word16) (s : State) : (s.hostResult code data).rxLen = s.rxLen := rfl
@[simp] theorem State.hostResult_rxCnt (code : ResultCode) (data : Option Word16) (s : State) : (s.hostResult code data).rxCnt = s.rxCnt := rfl
@[simp] theorem State.hostResult_rxBody (code : ResultCode) (data : Option Word16) (s : State) : (s.hostResult code data).rxBody = s.rxBody := rfl
@[simp] theorem State.hostResult_rxCrc (code : ResultCode) (data : Option Word16) (s : State) : (s.hostResult code data).rxCrc = s.rxCrc := rfl
@[simp] theorem State.hostResult_txOut (code : ResultCode) (data : Option Word16) (s : State) : (s.hostResult code data).txOut = s.txOut := rfl
@[simp] theorem State.hostResult_rxEvt (code : ResultCode) (data : Option Word16) (s : State) : (s.hostResult code data).rxEvt = s.rxEvt := rfl
@[simp] theorem State.hostResult_hostRes (code : ResultCode) (data : Option Word16) (s : State) : (s.hostResult code data).hostRes = s.hostRes ++ [⟨code, data⟩] := rfl
@[simp] theorem State.hostResult_lineRes (code : ResultCode) (data : Option Word16) (s : State) : (s.hostResult code data).lineRes = s.lineRes := rfl
@[simp] theorem State.hostResult_input (code : ResultCode) (data : Option Word16) (s : State) : (s.hostResult code data).input = s.input := rfl

@[simp] theorem State.lineResult_cfg (s : State) : (s.lineResult).cfg = s.cfg := rfl
@[simp] theorem State.lineResult_crcReg (s : State) : (s.lineResult).crcReg = s.crcReg := rfl
@[simp] theorem State.lineResult_rxState (s : State) : (s.lineResult).rxState = s.rxState := rfl
@[simp] theorem State.lineResult_rxForm (s : State) : (s.lineResult).rxForm = s.rxForm := rfl
@[simp] theorem State.lineResult_rxLen (s : State) : (s.lineResult).rxLen = s.rxLen := rfl
@[simp] theorem State.lineResult_rxCnt (s : State) : (s.lineResult).rxCnt = s.rxCnt := rfl
@[simp] theorem State.lineResult_rxBody (s : State) : (s.lineResult).rxBody = s.rxBody := rfl
@[simp] theorem State.lineResult_rxCrc (s : State) : (s.lineResult).rxCrc = s.rxCrc := rfl
@[simp] theorem State.lineResult_txOut (s : State) : (s.lineResult).txOut = s.txOut := rfl
@[simp] theorem State.lineResult_rxEvt (s : State) : (s.lineResult).rxEvt = s.rxEvt := rfl
@[simp] theorem State.lineResult_hostRes (s : State) : (s.lineResult).hostRes = s.hostRes := rfl
@[simp] theorem State.lineResult_lineRes (s : State) : (s.lineResult).lineRes = s.lineRes ++ [⟨.ok, none⟩] := rfl
@[simp] theorem State.lineResult_input (s : State) : (s.lineResult).input = s.input := rfl

@[simp] theorem raise_cfg (code : ResultCode) (s : State) : (raise code s).cfg = s.cfg := rfl
@[simp] theorem raise_crcReg (code : ResultCode) (s : State) : (raise code s).crcReg = s.crcReg := rfl
@[simp] theorem raise_rxState (code : ResultCode) (s : State) : (raise code s).rxState = s.rxState := rfl
@[simp] theorem raise_rxForm (code : ResultCode) (s : State) : (raise code s).rxForm = s.rxForm := rfl
@[simp] theorem raise_rxLen (code : ResultCode) (s : State) : (raise code s).rxLen = s.rxLen := rfl
@[simp] theorem raise_rxCnt (code : ResultCode) (s : State) : (raise code s).rxCnt = s.rxCnt := rfl
@[simp] theorem raise_rxBody (code : ResultCode) (s : State) : (raise code s).rxBody = s.rxBody := rfl
@[simp] theorem raise_rxCrc (code : ResultCode) (s : State) : (raise code s).rxCrc = s.rxCrc := rfl
@[simp] theorem raise_txOut (code : ResultCode) (s : State) : (raise code s).txOut = s.txOut := rfl
@[simp] theorem raise_rxEvt (code : ResultCode) (s : State) : (raise code s).rxEvt = s.rxEvt := rfl
@[simp] theorem raise_hostRes (code : ResultCode) (s : State) : (raise code s).hostRes = s.hostRes ++ [⟨code, none⟩] := rfl
@[simp] theorem raise_lineRes (code : ResultCode) (s : State) : (raise code s).lineRes = s.lineRes := rfl
@[simp] theorem raise_input (code : ResultCode) (s : State) : (raise code s).input = s.input := rfl

@[simp] theorem illegalOp_cfg (s : State) : (illegalOp s).cfg = s.cfg := rfl
@[simp] theorem illegalOp_crcReg (s : State) : (illegalOp s).crcReg = s.crcReg := rfl
@[simp] theorem illegalOp_rxState (s : State) : (illegalOp s).rxState = s.rxState := rfl
@[simp] theorem illegalOp_rxForm (s : State) : (illegalOp s).rxForm = s.rxForm := rfl
@[simp] theorem illegalOp_rxLen (s : State) : (illegalOp s).rxLen = s.rxLen := rfl
@[simp] theorem illegalOp_rxCnt (s : State) : (illegalOp s).rxCnt = s.rxCnt := rfl
@[simp] theorem illegalOp_rxBody (s : State) : (illegalOp s).rxBody = s.rxBody := rfl
@[simp] theorem illegalOp_rxCrc (s : State) : (illegalOp s).rxCrc = s.rxCrc := rfl
@[simp] theorem illegalOp_txOut (s : State) : (illegalOp s).txOut = s.txOut := rfl
@[simp] theorem illegalOp_rxEvt (s : State) : (illegalOp s).rxEvt = s.rxEvt := rfl
@[simp] theorem illegalOp_hostRes (s : State) : (illegalOp s).hostRes = s.hostRes ++ [⟨.illegalOp, none⟩] := rfl
@[simp] theorem illegalOp_lineRes (s : State) : (illegalOp s).lineRes = s.lineRes := rfl
@[simp] theorem illegalOp_input (s : State) : (illegalOp s).input = s.input := rfl

@[simp] theorem applyReset_cfg (s : State) : (applyReset s).cfg = s.cfg := rfl
@[simp] theorem applyReset_crcReg (s : State) : (applyReset s).crcReg = s.cfg.crc.init := rfl
@[simp] theorem applyReset_rxState (s : State) : (applyReset s).rxState = .seeking := rfl
@[simp] theorem applyReset_rxForm (s : State) : (applyReset s).rxForm = .short := rfl
@[simp] theorem applyReset_rxLen (s : State) : (applyReset s).rxLen = 0#16 := rfl
@[simp] theorem applyReset_rxCnt (s : State) : (applyReset s).rxCnt = 0#16 := rfl
@[simp] theorem applyReset_rxBody (s : State) : (applyReset s).rxBody = [] := rfl
@[simp] theorem applyReset_rxCrc (s : State) : (applyReset s).rxCrc = 0#16 := rfl
@[simp] theorem applyReset_txOut (s : State) : (applyReset s).txOut = s.txOut := rfl
@[simp] theorem applyReset_rxEvt (s : State) : (applyReset s).rxEvt = s.rxEvt := rfl
@[simp] theorem applyReset_hostRes (s : State) : (applyReset s).hostRes = s.hostRes := rfl
@[simp] theorem applyReset_lineRes (s : State) : (applyReset s).lineRes = s.lineRes := rfl
@[simp] theorem applyReset_input (s : State) : (applyReset s).input = s.input := rfl

/-- The results list grows by exactly the result returned. -/
theorem raise_eq (code : ResultCode) (s : State) :
    raise code s = { s with hostRes := s.hostRes ++ [⟨code, none⟩] } := rfl

end Sys2Proof.Machine
end

