-- ==== Sys2Proof/Laws/Ops.lean ====
section
/-! SUPPORT. For each shared operation, once, everything it can do. -/

namespace Sys2Proof.Machine

/-- What `make_frame` answers (42_tx_framer.md R120): TX_OVERSIZED exactly above `MAX_LEN`, else a short or a long frame. -/
theorem makeFrame_cases (cfg : Config) (body : List Byte) :
    (cfg.maxLen < body.length ∧ makeFrame cfg body = .error .txOversized) ∨
    (body.length ≤ cfg.maxLen ∧ body.length ≤ cfg.framing.shortMax.toNat ∧
      makeFrame cfg body = .ok (shortFrameBytes cfg.framing body (crc16 cfg.crc body) cfg.framing.endMark)) ∨
    (body.length ≤ cfg.maxLen ∧ cfg.framing.shortMax.toNat < body.length ∧
      makeFrame cfg body = .ok (longFrameBytes cfg.framing body (crc16 cfg.crc body) cfg.framing.endMark)) := by
  unfold makeFrame
  grind

/-- What the end of a transmit operation does: one frame emitted and OK, or TX_OVERSIZED and nothing else. -/
theorem sendBody_cases (body : List Byte) (s : State) :
    (∃ f, makeFrame s.cfg body = .ok f ∧
      sendBody body s = { s with txOut := s.txOut ++ [f], hostRes := s.hostRes ++ [⟨.ok, none⟩] }) ∨
    (makeFrame s.cfg body = .error .txOversized ∧
      sendBody body s = { s with hostRes := s.hostRes ++ [⟨.txOversized, none⟩] }) := by
  rcases makeFrame_cases s.cfg body with ⟨_, h⟩ | ⟨_, _, h⟩ | ⟨_, _, h⟩
  · exact .inr ⟨h, by simp [sendBody, h, raise, State.hostResult]⟩
  · exact .inl ⟨_, h, by simp [sendBody, h, State.emit, State.hostResult]⟩
  · exact .inl ⟨_, h, by simp [sendBody, h, State.emit, State.hostResult]⟩

/-- `fx_encode` fails with ARG_NOT_FINITE or ARG_RANGE only (43_command_encoder.md R140). -/
theorem fxEncode_error {m : ProductMode} {t : TieRule} {p : CmdParams} {x : Word64} {e : ResultCode}
    (h : fxEncode m t p x = .error e) : e = .argNotFinite ∨ e = .argRange := by
  unfold fxEncode at h
  grind

/-- The value of `fx_encode` is in the signed range of the width (43_command_encoder.md R144). -/
theorem fxEncode_ok {m : ProductMode} {t : TieRule} {p : CmdParams} {x : Word64} {q : Int}
    (h : fxEncode m t p x = .ok q) :
    finite64 x = true ∧ inDomain p.domain (val64 x) = true ∧ inWidth p.width q = true ∧
      ∃ r, scaledProduct m (val64 x) p.scale = some r ∧ q = roundToInt t r := by
  unfold fxEncode at h
  grind

/-- What a setting command does: the argument's frame is sent, or the first failing check's code is returned and nothing
else happens (43_command_encoder.md R146). -/
theorem cmdSet_cases (p : CmdParams) (x : Word64) (s : State) :
    (∃ q, fxEncode s.cfg.product s.cfg.tie p x = .ok q ∧ cmdSet p x s = sendBody (commandBody p q) s) ∨
    (∃ e, fxEncode s.cfg.product s.cfg.tie p x = .error e ∧ (e = .argNotFinite ∨ e = .argRange) ∧
      cmdSet p x s = { s with hostRes := s.hostRes ++ [⟨e, none⟩] }) := by
  cases h : fxEncode s.cfg.product s.cfg.tie p x with
  | ok q => exact .inl ⟨q, rfl, by simp [cmdSet, h]⟩
  | error e => exact .inr ⟨e, rfl, fxEncode_error h, by simp [cmdSet, h, raise, State.hostResult]⟩

/-- Everything one transition of the receive state machine can do (44_rx_deframer.md R170 to R176). -/
theorem rxTransition_cases (b : Byte) (s : State) :
    (s.rxState = .seeking ∧ b = s.cfg.framing.startShort ∧ rxTransition b s =
      { s with rxForm := .short, rxLen := 0#16, rxCnt := 0#16, rxState := .readLen }) ∨
    (s.rxState = .seeking ∧ b ≠ s.cfg.framing.startShort ∧ b = s.cfg.framing.startLong ∧ rxTransition b s =
      { s with rxForm := .long, rxLen := 0#16, rxCnt := 0#16, rxState := .readLen }) ∨
    (s.rxState = .seeking ∧ b ≠ s.cfg.framing.startShort ∧ b ≠ s.cfg.framing.startLong ∧ rxTransition b s = s) ∨
    (s.rxState = .readLen ∧ s.rxForm = .long ∧ s.rxCnt = 0#16 ∧ rxTransition b s =
      { s with rxLen := b.zeroExtend 16 <<< 8, rxCnt := 1#16 }) ∨
    (∃ len, s.rxState = .readLen ∧
      ((s.rxForm = .short ∧ len = b.zeroExtend 16) ∨
        (s.rxForm = .long ∧ s.rxCnt ≠ 0#16 ∧ len = s.rxLen ||| b.zeroExtend 16)) ∧
      ((s.cfg.maxLen < len.toNat ∧ rxTransition b s =
          { s with rxLen := len, rxCnt := 0#16, rxState := .seeking, rxEvt := s.rxEvt ++ [.oversizedFrame] }) ∨
        (len.toNat ≤ s.cfg.maxLen ∧ len = 0#16 ∧ rxTransition b s =
          { s with rxLen := len, rxCnt := 0#16, rxBody := [], rxState := .readCrc }) ∨
        (len.toNat ≤ s.cfg.maxLen ∧ len ≠ 0#16 ∧ rxTransition b s =
          { s with rxLen := len, rxCnt := 0#16, rxBody := [], rxState := .readBody }))) ∨
    (s.rxState = .readBody ∧ s.rxCnt + 1#16 = s.rxLen ∧ rxTransition b s =
      { s with rxBody := s.rxBody ++ [b], rxCnt := 0#16, rxState := .readCrc }) ∨
    (s.rxState = .readBody ∧ s.rxCnt + 1#16 ≠ s.rxLen ∧ rxTransition b s =
      { s with rxBody := s.rxBody ++ [b], rxCnt := s.rxCnt + 1#16 }) ∨
    (s.rxState = .readCrc ∧ s.rxCnt = 0#16 ∧ rxTransition b s =
      { s with rxCrc := b.zeroExtend 16 <<< 8, rxCnt := 1#16 }) ∨
    (s.rxState = .readCrc ∧ s.rxCnt ≠ 0#16 ∧ rxTransition b s =
      { s with rxCrc := s.rxCrc ||| b.zeroExtend 16, rxCnt := 0#16, rxState := .readEnd }) ∨
    (∃ e, s.rxState = .readEnd ∧
      ((b = s.cfg.framing.endMark ∧ crc16 s.cfg.crc s.rxBody = s.rxCrc ∧ e = .frameOk s.rxBody) ∨
        (b = s.cfg.framing.endMark ∧ crc16 s.cfg.crc s.rxBody ≠ s.rxCrc ∧ e = .checksumError) ∨
        (b ≠ s.cfg.framing.endMark ∧ e = .invalidEndMarker)) ∧
      rxTransition b s = { s with rxState := .seeking, rxEvt := s.rxEvt ++ [e] }) := by
  cases hst : s.rxState with
  | seeking => simp only [rxTransition, hst, rxSeeking]; grind
  | readLen =>
    cases hf : s.rxForm <;> simp only [rxTransition, hst, rxReadLen, hf, rxLengthDone, State.post] <;> grind
  | readBody => simp only [rxTransition, hst, rxReadBody]; grind
  | readCrc => simp only [rxTransition, hst, rxReadCrc]; grind
  | readEnd => simp only [rxTransition, hst, rxReadEnd, crcOk, State.post]; grind

/-- A receive transition touches nothing of the host side, the parameters, the results or what is presented
(10_state.md R34). -/
theorem rxTransition_frame (b : Byte) (s : State) :
    (rxTransition b s).cfg = s.cfg ∧ (rxTransition b s).crcReg = s.crcReg ∧ (rxTransition b s).txOut = s.txOut ∧
      (rxTransition b s).hostRes = s.hostRes ∧ (rxTransition b s).lineRes = s.lineRes ∧
      (rxTransition b s).input = s.input := by
  rcases rxTransition_cases b s with ⟨_, _, h⟩ | ⟨_, _, _, h⟩ | ⟨_, _, _, h⟩ | ⟨_, _, _, h⟩ |
    ⟨_, _, _, ⟨_, h⟩ | ⟨_, _, h⟩ | ⟨_, _, h⟩⟩ | ⟨_, _, h⟩ | ⟨_, _, h⟩ | ⟨_, _, h⟩ | ⟨_, _, h⟩ | ⟨_, _, _, h⟩ <;>
    simp [h]

@[simp] theorem rxStep_cfg (s : State) (b : Byte) : (rxStep s b).cfg = s.cfg := (rxTransition_frame b s).1
@[simp] theorem rxStep_crcReg (s : State) (b : Byte) : (rxStep s b).crcReg = s.crcReg := (rxTransition_frame b s).2.1
@[simp] theorem rxStep_txOut (s : State) (b : Byte) : (rxStep s b).txOut = s.txOut := (rxTransition_frame b s).2.2.1
@[simp] theorem rxStep_hostRes (s : State) (b : Byte) : (rxStep s b).hostRes = s.hostRes :=
  (rxTransition_frame b s).2.2.2.1
@[simp] theorem rxStep_lineRes (s : State) (b : Byte) : (rxStep s b).lineRes = s.lineRes ++ [⟨.ok, none⟩] := by
  simp [rxStep, (rxTransition_frame b s).2.2.2.2.1]
@[simp] theorem rxStep_input (s : State) (b : Byte) : (rxStep s b).input = s.input := (rxTransition_frame b s).2.2.2.2.2

@[simp] theorem rxFeed_nil (s : State) : rxFeed [] s = s := rfl
@[simp] theorem rxFeed_cons (b : Byte) (bs : List Byte) (s : State) : rxFeed (b :: bs) s = rxFeed bs (rxStep s b) := rfl
theorem rxFeed_append (as bs : List Byte) (s : State) : rxFeed (as ++ bs) s = rxFeed bs (rxFeed as s) := by
  simp [rxFeed]

@[simp] theorem rxFeed_cfg (bs : List Byte) (s : State) : (rxFeed bs s).cfg = s.cfg := by
  induction bs generalizing s <;> simp_all
@[simp] theorem rxFeed_crcReg (bs : List Byte) (s : State) : (rxFeed bs s).crcReg = s.crcReg := by
  induction bs generalizing s <;> simp_all
@[simp] theorem rxFeed_txOut (bs : List Byte) (s : State) : (rxFeed bs s).txOut = s.txOut := by
  induction bs generalizing s <;> simp_all
@[simp] theorem rxFeed_hostRes (bs : List Byte) (s : State) : (rxFeed bs s).hostRes = s.hostRes := by
  induction bs generalizing s <;> simp_all
@[simp] theorem rxFeed_input (bs : List Byte) (s : State) : (rxFeed bs s).input = s.input := by
  induction bs generalizing s <;> simp_all
@[simp] theorem rxFeed_lineRes (bs : List Byte) (s : State) :
    (rxFeed bs s).lineRes = s.lineRes ++ List.replicate bs.length ⟨.ok, none⟩ := by
  induction bs generalizing s <;> simp_all [List.replicate_succ]

@[simp] theorem putBack_nil (form : List Byte → Input) (rest : List Input) : putBack form [] rest = rest := rfl
@[simp] theorem putBack_cons (form : List Byte → Input) (b : Byte) (bs : List Byte) (rest : List Input) :
    putBack form (b :: bs) rest = form (b :: bs) :: rest := rfl

/-- What arriving bytes do: one RX.BYTE, the others stay presented (10_state.md R21). -/
@[simp] theorem receiveFirst_cons (b : Byte) (tail : List Byte) (s : State) :
    receiveFirst (b :: tail) s = rxStep { s with input := putBack .line tail s.input } b := rfl

/-- What a chunk put back holds: nothing is lost and no empty chunk stays. -/
theorem putBack_cases (form : List Byte → Input) (bytes : List Byte) (rest : List Input) :
    (bytes = [] ∧ putBack form bytes rest = rest) ∨ (bytes ≠ [] ∧ putBack form bytes rest = form bytes :: rest) := by
  cases bytes <;> simp [putBack]

end Sys2Proof.Machine
end

