-- ==== Sys2Proof/Laws/Frames.lean ====
section
/-! SUPPORT. What the shared operations leave alone, and that they keep the receive-state invariant. -/

namespace Sys2Proof.Machine

/-- Every instruction of every state goes on: no arm of `exec` faults or refuses. -/
theorem exec_answers_next (i : Instr) (s : State) : ∃ t, exec i s = .next t := by
  cases i <;> exact ⟨_, rfl⟩

/-- A receive step posts nothing, or one event, which returns to `SEEKING` (44_rx_deframer.md R170, R182). -/
theorem rxStep_posts (s : State) (b : Byte) :
    (rxStep s b).rxEvt = s.rxEvt ∨ ∃ e, (rxStep s b).rxEvt = s.rxEvt ++ [e] ∧ (rxStep s b).rxState = .seeking := by
  rcases rxTransition_cases b s with ⟨_, _, h⟩ | ⟨_, _, _, h⟩ | ⟨_, _, _, h⟩ | ⟨_, _, _, h⟩ |
    ⟨_, _, _, ⟨_, h⟩ | ⟨_, _, h⟩ | ⟨_, _, h⟩⟩ | ⟨_, _, h⟩ | ⟨_, _, h⟩ | ⟨_, _, h⟩ | ⟨_, _, h⟩ | ⟨_, _, _, h⟩ <;>
    simp [h, rxStep]

theorem lowByteZero_shift (b : Byte) : lowByteZero (b.zeroExtend 16 <<< 8) = true := by
  revert b; decide +kernel

/-- A receive step keeps 10_state.md R30. -/
theorem rxStep_rxInv (s : State) (b : Byte) (hi : s.rxInv = true) : (rxStep s b).rxInv = true := by
  unfold State.rxInv at hi ⊢
  rcases rxTransition_cases b s with ⟨h0, h1, h⟩ | ⟨h0, h1, h2, h⟩ | ⟨h0, h1, h2, h⟩ | ⟨h0, h1, h2, h⟩ |
    ⟨n, h0, h1, ⟨h2, h⟩ | ⟨h2, h3, h⟩ | ⟨h2, h3, h⟩⟩ | ⟨h0, h1, h⟩ | ⟨h0, h1, h⟩ | ⟨h0, h1, h⟩ | ⟨h0, h1, h⟩ |
    ⟨n, h0, _, h⟩ <;>
    simp only [rxStep, h, h0, State.lineResult_rxState, State.lineResult_rxForm, State.lineResult_rxCnt,
      State.lineResult_rxLen, State.lineResult_rxBody, State.lineResult_rxCrc, State.lineResult_cfg] at hi ⊢
  · simp
  · simp
  · simp [h1, lowByteZero_shift]
  · simp [h3]
  · have : n.toNat ≠ 0 := fun e => h3 (BitVec.eq_of_toNat_eq (by simpa using e))
    simp; omega
  · simp at hi ⊢
    have := congrArg BitVec.toNat h1
    have h4 := s.rxLen.isLt
    simp [BitVec.toNat_add] at this
    omega
  · simp at hi ⊢
    have : s.rxCnt.toNat + 1 ≠ s.rxLen.toNat := by
      intro e; apply h1; apply BitVec.eq_of_toNat_eq; simp [BitVec.toNat_add]; have h4 := s.rxLen.isLt; omega
    have h4 := s.rxLen.isLt
    have h5 := s.rxCnt.isLt
    omega
  · simp at hi ⊢
    grind [lowByteZero_shift]
  · simp at hi ⊢
    grind

theorem rxFeed_rxInv (bs : List Byte) (s : State) (hi : s.rxInv = true) : (rxFeed bs s).rxInv = true := by
  induction bs generalizing s with
  | nil => simpa
  | cons b bs ih => exact ih _ (rxStep_rxInv _ _ hi)

/-- A receive step reads nothing of what is presented. -/
theorem rxStep_withInput (s : State) (b : Byte) (x : List Input) :
    { rxStep s b with input := x } = rxStep { s with input := x } b := by
  rcases s with ⟨cfg, c, st, f, l, n, bd, cr, tx, ev, hr, lr, ip⟩
  simp only [rxStep, rxTransition, State.lineResult]
  cases st <;> simp only [rxSeeking, rxReadLen, rxReadBody, rxReadCrc, rxReadEnd, rxLengthDone, State.post] <;>
    (repeat' split) <;> simp_all

/-- Arriving bytes keep 10_state.md R30 and the host side. -/
theorem receiveFirst_frame (bs : List Byte) (s : State) :
    (s.rxInv = true → (receiveFirst bs s).rxInv = true) ∧ SameHostSide s (receiveFirst bs s) ∧
      (receiveFirst bs s).cfg = s.cfg := by
  cases bs with
  | nil => simp [receiveFirst, SameHostSide]
  | cons b tail => exact ⟨fun h => rxStep_rxInv _ b h, by simp [SameHostSide], by simp⟩

/-- What the tail decoder of a frame answers, it read from the front of the bytes (30_encoding.md R62). -/
theorem decodeTail_ok {mk : List Byte → Word16 → Byte → Instr} {n : Nat} {bs tail : List Byte} {i : Instr}
    (h : decodeTail mk n bs = .ok (i, tail)) :
    ∃ hi lo last, i = mk (bs.take n) (word16 hi lo) last ∧ bs = bs.take n ++ hi :: lo :: last :: tail ∧ n ≤ bs.length := by
  unfold decodeTail at h
  split at h
  · next hi lo last rest e =>
    simp only [Except.ok.injEq, Prod.mk.injEq] at h
    obtain ⟨rfl, rfl⟩ := h
    refine ⟨hi, lo, last, rfl, by rw [← e, List.take_append_drop], ?_⟩
    by_contra hc
    rw [List.drop_eq_nil_of_le (by omega)] at e
    cases e
  · cases h

/-- The receive-state invariant reads the line side and the parameters only. -/
theorem rxInv_of_sameLineSide {s t : State} (h : SameLineSide s t) (hc : t.cfg = s.cfg) : t.rxInv = s.rxInv := by
  obtain ⟨h1, h2, h3, h4, h5, h6, _⟩ := h
  unfold State.rxInv
  simp only [*]

/-- What the end of a transmit operation leaves alone. -/
theorem sendBody_frame (body : List Byte) (s : State) :
    SameLineSide s (sendBody body s) ∧ (sendBody body s).cfg = s.cfg ∧ (sendBody body s).input = s.input ∧
      (sendBody body s).crcReg = s.crcReg := by
  rcases sendBody_cases body s with ⟨f, _, h⟩ | ⟨_, h⟩ <;> simp [h, SameLineSide]

/-- What the common command step leaves alone. -/
theorem cmdSet_frame (p : CmdParams) (x : Word64) (s : State) :
    SameLineSide s (cmdSet p x s) ∧ (cmdSet p x s).cfg = s.cfg ∧ (cmdSet p x s).input = s.input ∧
      (cmdSet p x s).crcReg = s.crcReg := by
  rcases cmdSet_cases p x s with ⟨q, _, h⟩ | ⟨_, _, _, h⟩
  · rw [h]; exact sendBody_frame _ _
  · simp [h, SameLineSide]

/-- What a sequence of received bytes leaves alone (10_state.md R34). -/
theorem rxFeed_sameHostSide (bs : List Byte) (s : State) : SameHostSide s (rxFeed bs s) := by
  simp [SameHostSide]

theorem runInstrs_rxByte (bs : List Byte) (s : State) : runInstrs (bs.map Instr.rxByte) s = .next (rxFeed bs s) := by
  induction bs generalizing s with
  | nil => rfl
  | cons b bs ih => simp [runInstrs, exec, execRxByte, ih]

theorem runInstrs_append (is js : List Instr) (s t : State) (h : runInstrs is s = .next t) :
    runInstrs (is ++ js) s = runInstrs js t := by
  induction is generalizing s with
  | nil => simp only [runInstrs, Host.Outcome.next.injEq] at h; subst h; rfl
  | cons i is ih =>
    obtain ⟨u, hu⟩ := exec_answers_next i s
    simp only [runInstrs, hu] at h
    simp only [List.cons_append, runInstrs, hu, ih u h]

end Sys2Proof.Machine
end

