-- ==== Sys2Proof/Laws/PerInstr.lean ====
section
/-! SUPPORT. A family of statements about each row of the table: the size of its encoding (30_encoding.md R60, R63, R70). -/

namespace Sys2Proof.Laws.EncodedSize

/-- The size the encoding tables give a row: formats N, B, F and P (30_encoding.md R70), the two frame forms (R60) and the
bodies (R63). -/
def sizeOf (cfg : Config) : Instr → Nat
  | .crcClear => 1
  | .crcUpdate _ => 2
  | .crcRead => 1
  | .frameEncode _ payload => 4 + payload.length
  | .cmdFwVersion => 1
  | .cmdGetValues => 1
  | .cmdSetDuty _ => 9
  | .cmdSetCurrent _ => 9
  | .cmdSetBrake _ => 9
  | .cmdSetRpm _ => 9
  | .cmdSetPos _ => 9
  | .cmdSetServo _ => 9
  | .rxByte _ => 2
  | .frameShort body _ _ => body.length + 5
  | .frameLong body _ _ => body.length + 6
  | .bodyFwVersion => 1
  | .bodyGetValues => 1
  | .bodySetDuty _ => 1 + cfg.duty.width
  | .bodySetCurrent _ => 1 + cfg.current.width
  | .bodySetBrake _ => 1 + cfg.brake.width
  | .bodySetRpm _ => 1 + cfg.rpm.width
  | .bodySetPos _ => 1 + cfg.pos.width
  | .bodySetServo _ => 1 + cfg.servo.width

/-- Under a configuration that 00_scope.md R3 admits, the encoding of i has the size its row gives it. -/
def Statement (i : Instr) : Prop := ∀ cfg : Config, cfg.ok = true → (encode cfg i).length = sizeOf cfg i

/-- Argument bytes of an admitted width have that width. -/
theorem argBytes_length {p : CmdParams} (h : p.ok = true) (q : Int) : (argBytes p.width q).length = p.width := by
  simp only [CmdParams.ok, Bool.and_eq_true, Bool.or_eq_true, beq_iff_eq] at h
  rcases h.2 with h | h <;> simp [argBytes, h]

/-- The parameters of every setting command are admitted in an admitted configuration. -/
theorem ok_params {cfg : Config} (h : cfg.ok = true) :
    cfg.duty.ok = true ∧ cfg.current.ok = true ∧ cfg.brake.ok = true ∧ cfg.rpm.ok = true ∧ cfg.pos.ok = true ∧
      cfg.servo.ok = true := by
  simp only [Config.ok, Bool.and_eq_true] at h
  tauto

/-- The size of a setting command's body. -/
theorem commandBody_length {p : CmdParams} (h : p.ok = true) (q : Int) : (commandBody p q).length = 1 + p.width := by
  simp [commandBody, argBytes_length h, Nat.add_comm]

theorem crcClear : Statement .crcClear := fun _ _ => rfl
theorem crcUpdate (b : Byte) : Statement (.crcUpdate b) := fun _ _ => rfl
theorem crcRead : Statement .crcRead := fun _ _ => rfl
theorem frameEncode (cid : Byte) (payload : List Byte) : Statement (.frameEncode cid payload) := fun _ _ => by
  simp [encode, sizeOf]
  omega
theorem cmdFwVersion : Statement .cmdFwVersion := fun _ _ => rfl
theorem cmdGetValues : Statement .cmdGetValues := fun _ _ => rfl
theorem cmdSetDuty (x : Word64) : Statement (.cmdSetDuty x) := fun _ _ => rfl
theorem cmdSetCurrent (x : Word64) : Statement (.cmdSetCurrent x) := fun _ _ => rfl
theorem cmdSetBrake (x : Word64) : Statement (.cmdSetBrake x) := fun _ _ => rfl
theorem cmdSetRpm (x : Word64) : Statement (.cmdSetRpm x) := fun _ _ => rfl
theorem cmdSetPos (x : Word64) : Statement (.cmdSetPos x) := fun _ _ => rfl
theorem cmdSetServo (x : Word64) : Statement (.cmdSetServo x) := fun _ _ => rfl
theorem rxByte (b : Byte) : Statement (.rxByte b) := fun _ _ => rfl
theorem frameShort (body : List Byte) (crc : Word16) (last : Byte) : Statement (.frameShort body crc last) :=
  fun _ _ => by simp [encode, shortFrameBytes, sizeOf]
theorem frameLong (body : List Byte) (crc : Word16) (last : Byte) : Statement (.frameLong body crc last) :=
  fun _ _ => by
    simp [encode, longFrameBytes, sizeOf]
    omega
theorem bodyFwVersion : Statement .bodyFwVersion := fun _ _ => rfl
theorem bodyGetValues : Statement .bodyGetValues := fun _ _ => rfl
theorem bodySetDuty (q : Int) : Statement (.bodySetDuty q) := fun _ h => commandBody_length (ok_params h).1 q
theorem bodySetCurrent (q : Int) : Statement (.bodySetCurrent q) := fun _ h => commandBody_length (ok_params h).2.1 q
theorem bodySetBrake (q : Int) : Statement (.bodySetBrake q) := fun _ h => commandBody_length (ok_params h).2.2.1 q
theorem bodySetRpm (q : Int) : Statement (.bodySetRpm q) := fun _ h => commandBody_length (ok_params h).2.2.2.1 q
theorem bodySetPos (q : Int) : Statement (.bodySetPos q) := fun _ h => commandBody_length (ok_params h).2.2.2.2.1 q
theorem bodySetServo (q : Int) : Statement (.bodySetServo q) := fun _ h => commandBody_length (ok_params h).2.2.2.2.2 q

end Sys2Proof.Laws.EncodedSize
end

