-- ==== Sys2Proof/Tests/Slice0.lean ====
section
/-! SUPPORT. The model's own tests. Expected values are transcribed from 95_test_vectors.md and the worked examples of the
rules, or written out by hand from the encoding tables of 30_encoding.md; none is the model's own answer. -/

namespace Sys2Proof.Tests

-- One theorem at a time: many waiting for the kernel at once each hold a stack.
set_option Elab.async false

open Sys2Proof.Machine

/-- The reset state with another `MAX_LEN`. -/
def withMax (n : Nat) : State := { State.reset with cfg := { Config.default with maxLen := n } }

/-- The reset state with one thing presented. -/
def presenting (i : Input) : State := { State.reset with input := [i] }

/-- What an instruction emits and returns from a state. -/
def sent (i : Instr) (s : State) : Option (List (List Byte) × List Result) :=
  (nextState (exec i s)).map fun t => (t.txOut, t.hostRes)

/-- The events an instruction posts and the receive state it leaves, from a state. -/
def heard (i : Instr) (s : State) : Option (List Event × RxState) :=
  (nextState (exec i s)).map fun t => (t.rxEvt, t.rxState)

/-- The valid frame of the source's example (95_test_vectors.md section 1.1). -/
def vFrame : List Byte := [0x02#8, 0x05#8, 0x05#8, 0x00#8, 0x00#8, 0xC3#8, 0x50#8, 0x3A#8, 0xA5#8, 0x03#8]

/-- The body of that frame. -/
def vBody : List Byte := [0x05#8, 0x00#8, 0x00#8, 0xC3#8, 0x50#8]

/-! ### Well-formedness: an ill-formed term for each check -/

theorem test_wf_refuses_long_payload (bs : List Byte) (h : bs.length = 65536) :
    WellFormed Config.default (.frameEncode 0#8 bs) = false := by simp [WellFormed, h]
theorem test_wf_refuses_long_short_body (bs : List Byte) (h : bs.length = 256) :
    WellFormed Config.default (.frameShort bs 0#16 3#8) = false := by simp [WellFormed, h]
theorem test_wf_refuses_long_long_body (bs : List Byte) (h : bs.length = 65536) :
    WellFormed Config.default (.frameLong bs 0#16 3#8) = false := by simp [WellFormed, h]
theorem test_wf_refuses_wide_arguments :
    [Instr.bodySetDuty 2147483648, .bodySetCurrent (-2147483649), .bodySetBrake 2147483648, .bodySetRpm 2147483648,
      .bodySetPos (-2147483649), .bodySetServo 32768, .bodySetServo (-32769)].map (WellFormed Config.default) =
      List.replicate 7 false := by decide
theorem test_wf_admits_edges :
    [Instr.bodySetDuty 2147483647, .bodySetCurrent (-2147483648), .bodySetServo 32767, .bodySetServo (-32768)].all
      (WellFormed Config.default) = true := by decide
theorem test_config_default_admitted : Config.default.ok = true := by decide
theorem test_config_refuses_long_limit : { Config.default with maxLen := 65536 }.ok = false := by decide
theorem test_config_refuses_equal_ids : { Config.default with getValuesId := 0x05#8 }.ok = false := by decide
theorem test_config_refuses_zero_scale :
    { Config.default with rpm := { Config.default.rpm with scale := 0 } }.ok = false := by decide
theorem test_config_refuses_width_three :
    { Config.default with servo := { Config.default.servo with width := 3 } }.ok = false := by decide

/-! ### Decoding: words written out from 30_encoding.md R70, R71, R60, R63 -/

theorem test_decode_crcClear : decodeOp [0x00#8] = .ok (.crcClear, []) := by decide
theorem test_decode_crcUpdate : decodeOp [0x01#8, 0x31#8] = .ok (.crcUpdate 0x31#8, []) := by decide
theorem test_decode_crcRead : decodeOp [0x02#8, 0x30#8] = .ok (.crcRead, [0x30#8]) := by decide
theorem test_decode_frameEncode :
    decodeOp [0x10#8, 0x05#8, 0x00#8, 0x04#8, 0x00#8, 0x00#8, 0xC3#8, 0x50#8] =
      .ok (.frameEncode 0x05#8 [0x00#8, 0x00#8, 0xC3#8, 0x50#8], []) := by decide
theorem test_decode_cmdFwVersion : decodeOp [0x20#8] = .ok (.cmdFwVersion, []) := by decide
theorem test_decode_cmdGetValues : decodeOp [0x21#8] = .ok (.cmdGetValues, []) := by decide
theorem test_decode_cmdSetDuty :
    decodeOp [0x22#8, 0x3F#8, 0xE0#8, 0#8, 0#8, 0#8, 0#8, 0#8, 0#8] = .ok (.cmdSetDuty 0x3FE0000000000000#64, []) := by decide
theorem test_decode_cmdSetCurrent :
    decodeOp [0x23#8, 0x41#8, 0x40#8, 0x62#8, 0x4D#8, 0xD2#8, 0xF1#8, 0xA9#8, 0xFC#8] =
      .ok (.cmdSetCurrent 0x4140624DD2F1A9FC#64, []) := by decide
theorem test_decode_cmdSetBrake :
    decodeOp [0x24#8, 0xC0#8, 0x14#8, 0#8, 0#8, 0#8, 0#8, 0#8, 0#8] = .ok (.cmdSetBrake 0xC014000000000000#64, []) := by decide
theorem test_decode_cmdSetRpm :
    decodeOp [0x25#8, 0x40#8, 0xA7#8, 0x70#8, 0#8, 0#8, 0#8, 0#8, 0#8] = .ok (.cmdSetRpm 0x40A7700000000000#64, []) := by decide
theorem test_decode_cmdSetPos :
    decodeOp [0x26#8, 0x40#8, 0x56#8, 0x80#8, 0#8, 0#8, 0#8, 0#8, 0#8] = .ok (.cmdSetPos 0x4056800000000000#64, []) := by decide
theorem test_decode_cmdSetServo :
    decodeOp [0x27#8, 0x3F#8, 0x72#8, 0x6E#8, 0x97#8, 0x8D#8, 0x4F#8, 0xDF#8, 0x3B#8] =
      .ok (.cmdSetServo 0x3F726E978D4FDF3B#64, []) := by decide
theorem test_decode_rxByte : decodeOp [0x30#8, 0x02#8] = .ok (.rxByte 0x02#8, []) := by decide
theorem test_decode_frameShort : decodeFrame Config.default vFrame = .ok (.frameShort vBody 0x3AA5#16 0x03#8, []) := by decide
theorem test_decode_frameLong :
    decodeFrame Config.default [0x03#8, 0x00#8, 0x01#8, 0x04#8, 0x40#8, 0x84#8, 0x02#8, 0x55#8] =
      .ok (.frameLong [0x04#8] 0x4084#16 0x02#8, [0x55#8]) := by decide
theorem test_decode_bodies :
    decodeBody Config.default [0x00#8] = .ok .bodyFwVersion ∧
    decodeBody Config.default [0x04#8] = .ok .bodyGetValues ∧
    decodeBody Config.default [0x05#8, 0x00#8, 0x00#8, 0xC3#8, 0x50#8] = .ok (.bodySetDuty 50000) ∧
    decodeBody Config.default [0x06#8, 0xFF#8, 0xFF#8, 0xF6#8, 0x3C#8] = .ok (.bodySetCurrent (-2500)) ∧
    decodeBody Config.default [0x07#8, 0x00#8, 0x00#8, 0x13#8, 0x88#8] = .ok (.bodySetBrake 5000) ∧
    decodeBody Config.default [0x08#8, 0x80#8, 0x00#8, 0x00#8, 0x00#8] = .ok (.bodySetRpm (-2147483648)) ∧
    decodeBody Config.default [0x09#8, 0x05#8, 0x5D#8, 0x4A#8, 0x80#8] = .ok (.bodySetPos 90000000) ∧
    decodeBody Config.default [0x0C#8, 0x01#8, 0xF4#8] = .ok (.bodySetServo 500) := by decide
/-- 95_test_vectors.md section 2.5: the illegal op bytes and the truncated operation. -/
theorem test_decode_refusals :
    ([0x03#8, 0x0F#8, 0x11#8, 0x28#8, 0x31#8, 0xFF#8].all fun b => decide (decodeOp [b] = .error (.illegalOp b))) = true ∧
    decodeOp [0x10#8, 0x05#8, 0x00#8, 0x04#8, 0x00#8, 0x00#8] = .error .truncated ∧
    decodeFrame Config.default [0x04#8, 0x00#8] = .error .notAFrame ∧
    decodeBody Config.default [0x0B#8] = .error .notACommandBody := by decide
theorem test_encode_words :
    encode Config.default (.cmdSetDuty 0x3FE0000000000000#64) = [0x22#8, 0x3F#8, 0xE0#8, 0#8, 0#8, 0#8, 0#8, 0#8, 0#8] ∧
    encode Config.default (.frameShort vBody 0x3AA5#16 0x03#8) = vFrame ∧
    encode Config.default (.bodySetServo 500) = [0x0C#8, 0x01#8, 0xF4#8] := by decide
theorem test_table_words :
    decodeTableWord 8 0x00 = some .crcClear ∧ decodeTableWord 8 0x10 = some (.frameEncode 0#8 []) ∧
    decodeTableWord 8 0x27 = some (.cmdSetServo 0#64) ∧ decodeTableWord 8 0x03 = some (.frameLong [] 0#16 0#8) ∧
    decodeTableWord 8 0x05 = some (.bodySetDuty 0) ∧ decodeTableWord 8 0x0C = some (.bodySetServo 0) ∧
    decodeTableWord 16 0x3101 = some (.crcUpdate 0x31#8) ∧ decodeTableWord 8 0x0F = none := by decide
theorem test_fetch_word_runs :
    nextState (step (State.reset.withFetchWord 8 0x03)) = nextState (exec (.frameLong [] 0#16 0#8) State.reset) ∧
    nextState (step (State.reset.withFetchWord 16 0x3101)) = nextState (exec (.crcUpdate 0x31#8) State.reset) ∧
    nextState (step (State.reset.withFetchWord 8 0x0C)) = nextState (exec (.bodySetServo 0) State.reset) := by decide +kernel

/-! ### Meanings: vectors of 95_test_vectors.md -/

/-- 41_crc16.md R103, the rule's example. -/
theorem test_crcClear : (nextState (exec .crcClear { State.reset with crcReg := 0x31C3#16 })).map (·.crcReg) = some 0#16 := by
  decide
/-- 41_crc16.md R104, the rule's examples. -/
theorem test_crcUpdate :
    (nextState (exec (.crcUpdate 0x01#8) State.reset)).map (·.crcReg) = some 0x1021#16 ∧
    (nextState (exec (.crcUpdate 0x31#8) State.reset)).map (·.crcReg) = some 0x2672#16 := by decide
/-- 95_test_vectors.md P1, P7. -/
theorem test_crcRead :
    sent .crcRead { State.reset with crcReg := 0x4084#16 } = some ([], [⟨.ok, some 0x4084#16⟩]) := by decide
/-- 95_test_vectors.md section 2.1. -/
theorem test_crc16 :
    crc16 CrcParams.source [0x31#8, 0x32#8, 0x33#8, 0x34#8, 0x35#8, 0x36#8, 0x37#8, 0x38#8, 0x39#8] = 0x31C3#16 ∧
    crc16 CrcParams.source vBody = 0x3AA5#16 ∧ crc16 CrcParams.source [0xFF#8, 0xFF#8] = 0x1D0F#16 := by decide +kernel
/-- 95_test_vectors.md section 2.2. -/
theorem test_frameEncode :
    sent (.frameEncode 0x02#8 [0x03#8, 0x02#8]) State.reset =
      some ([[0x02#8, 0x03#8, 0x02#8, 0x03#8, 0x02#8, 0x1B#8, 0x71#8, 0x03#8]], [⟨.ok, none⟩]) ∧
    sent (.frameEncode 0x05#8 [0x00#8, 0x00#8, 0xC3#8, 0x50#8]) (withMax 4) = some ([], [⟨.txOversized, none⟩]) := by
  decide +kernel
set_option maxRecDepth 100000 in
/-- 95_test_vectors.md section 2.2: n = 256 is the smallest long frame, with CRC 7E55. -/
theorem test_frameEncode_long :
    (sent (.frameEncode 0#8 ((List.range 255).map fun i => BitVec.ofNat 8 (i + 1))) State.reset).map
      (fun p => p.1.map fun f => (f.take 3, f.length, f.drop 259)) =
      some [([0x03#8, 0x01#8, 0x00#8], 262, [0x7E#8, 0x55#8, 0x03#8])] := by decide +kernel
theorem test_cmdFwVersion :
    sent .cmdFwVersion State.reset = some ([[0x02#8, 0x01#8, 0x00#8, 0x00#8, 0x00#8, 0x03#8]], [⟨.ok, none⟩]) ∧
    sent .cmdFwVersion (withMax 0) = some ([], [⟨.txOversized, none⟩]) := by decide +kernel
theorem test_cmdGetValues :
    sent .cmdGetValues State.reset = some ([[0x02#8, 0x01#8, 0x04#8, 0x40#8, 0x84#8, 0x03#8]], [⟨.ok, none⟩]) := by
  decide +kernel
/-- 95_test_vectors.md section 2.3: a tie, −0.5, NaN and the next value above 1. -/
theorem test_cmdSetDuty :
    sent (.cmdSetDuty 0x3F90000000000000#64) State.reset =
      some ([[0x02#8, 0x05#8, 0x05#8, 0x00#8, 0x00#8, 0x06#8, 0x1B#8, 0x2A#8, 0xAB#8, 0x03#8]], [⟨.ok, none⟩]) ∧
    sent (.cmdSetDuty 0xBFE0000000000000#64) State.reset =
      some ([[0x02#8, 0x05#8, 0x05#8, 0xFF#8, 0xFF#8, 0x3C#8, 0xB0#8, 0x40#8, 0xB4#8, 0x03#8]], [⟨.ok, none⟩]) := by
  decide +kernel
theorem test_cmdSetDuty_refused :
    sent (.cmdSetDuty 0x7FF8000000000000#64) State.reset = some ([], [⟨.argNotFinite, none⟩]) ∧
    sent (.cmdSetDuty 0x3FF0000000000001#64) State.reset = some ([], [⟨.argRange, none⟩]) := by decide +kernel
theorem test_cmdSetCurrent :
    sent (.cmdSetCurrent 0x3F726E978D4FDF3B#64) State.reset =
      some ([[0x02#8, 0x05#8, 0x06#8, 0x00#8, 0x00#8, 0x00#8, 0x05#8, 0x9D#8, 0x20#8, 0x03#8]], [⟨.ok, none⟩]) ∧
    sent (.cmdSetCurrent 0xC140624DD2F1A9FC#64) State.reset =
      some ([[0x02#8, 0x05#8, 0x06#8, 0x80#8, 0x00#8, 0x00#8, 0x00#8, 0x10#8, 0xBD#8, 0x03#8]], [⟨.ok, none⟩]) := by
  decide +kernel
theorem test_cmdSetCurrent_refused :
    sent (.cmdSetCurrent 0x4140624DD2E147AE#64) State.reset = some ([], [⟨.argRange, none⟩]) ∧
    sent (.cmdSetCurrent 0x7FE1CCF385EBC8A0#64) State.reset = some ([], [⟨.argRange, none⟩]) := by decide +kernel
theorem test_cmdSetBrake :
    sent (.cmdSetBrake 0xC014000000000000#64) State.reset =
      some ([[0x02#8, 0x05#8, 0x07#8, 0xFF#8, 0xFF#8, 0xEC#8, 0x78#8, 0x49#8, 0x54#8, 0x03#8]], [⟨.ok, none⟩]) := by
  decide +kernel
theorem test_cmdSetRpm :
    sent (.cmdSetRpm 0x3FF7FFFFFFFFFFFF#64) State.reset =
      some ([[0x02#8, 0x05#8, 0x08#8, 0x00#8, 0x00#8, 0x00#8, 0x01#8, 0x12#8, 0x0C#8, 0x03#8]], [⟨.ok, none⟩]) ∧
    sent (.cmdSetRpm 0x41DFFFFFFFE00000#64) State.reset = some ([], [⟨.argRange, none⟩]) := by decide +kernel
theorem test_cmdSetPos :
    sent (.cmdSetPos 0x3ECD5C31593E5FB7#64) State.reset =
      some ([[0x02#8, 0x05#8, 0x09#8, 0x00#8, 0x00#8, 0x00#8, 0x04#8, 0xE8#8, 0xF8#8, 0x03#8]], [⟨.ok, none⟩]) := by
  decide +kernel
theorem test_cmdSetServo :
    sent (.cmdSetServo 0x8000000000000000#64) State.reset =
      some ([[0x02#8, 0x03#8, 0x0C#8, 0x00#8, 0x00#8, 0x75#8, 0x61#8, 0x03#8]], [⟨.ok, none⟩]) ∧
    sent (.cmdSetServo 0xBF50624DD2F1A9FC#64) State.reset = some ([], [⟨.argRange, none⟩]) := by decide +kernel
/-- 93_implementation_defined.md U5: the two alternatives, with the examples it gives. -/
theorem test_alternative_modes :
    fxEncode .exact .awayFromZero Config.default.current 0x3F726E978D4FDF3B#64 = .ok 4 ∧
    fxEncode .binary64 .toEven Config.default.duty 0x3F90000000000000#64 = .ok 1562 := by decide +kernel
/-- 44_rx_deframer.md section 4: the wrong end byte, and the oversized short length with `MAX_LEN` = 4. -/
theorem test_rxByte :
    heard (.rxByte 0x02#8) { State.reset with rxState := .readEnd, rxBody := vBody, rxCrc := 0x3AA5#16, rxLen := 5#16 } =
      some ([.invalidEndMarker], .seeking) ∧
    heard (.rxByte 0x05#8) { withMax 4 with rxState := .readLen } = some ([.oversizedFrame], .seeking) := by decide +kernel
/-- 95_test_vectors.md RX1 and RX3, the last byte; RX13's last byte, of an empty long frame. -/
theorem test_rxByte_last :
    heard (.rxByte 0x03#8) { State.reset with rxState := .readEnd, rxBody := vBody, rxCrc := 0x3AA5#16, rxLen := 5#16 } =
      some ([.frameOk vBody], .seeking) ∧
    heard (.rxByte 0x03#8) { State.reset with rxState := .readEnd, rxBody := vBody, rxCrc := 0xBAA5#16, rxLen := 5#16 } =
      some ([.checksumError], .seeking) ∧
    heard (.rxByte 0x03#8) { State.reset with rxState := .readEnd, rxForm := .long } = some ([.frameOk []], .seeking) := by
  decide +kernel
/-- The frame of RX1 arrives: one byte taken, the others on the line (30_encoding.md R60, 10_state.md R21). -/
theorem test_frameShort :
    (nextState (exec (.frameShort vBody 0x3AA5#16 0x03#8) State.reset)).map (fun t => (t.rxState, t.rxForm, t.input)) =
      some (.readLen, .short, [.line [0x05#8, 0x05#8, 0x00#8, 0x00#8, 0xC3#8, 0x50#8, 0x3A#8, 0xA5#8, 0x03#8]]) := by
  decide +kernel
theorem test_frameLong :
    (nextState (exec (.frameLong [0x04#8] 0x4084#16 0x02#8) State.reset)).map (fun t => (t.rxState, t.rxForm, t.input)) =
      some (.readLen, .long, [.line [0x00#8, 0x01#8, 0x04#8, 0x40#8, 0x84#8, 0x02#8]]) := by decide +kernel
/-- 10_state.md R21: one step of a line chunk that is a whole frame takes one byte. -/
theorem test_line_step_takes_one_byte :
    (nextState (step (presenting (.line (vFrame ++ [0x55#8]))))).map (fun t => (t.lineRes.length, t.input)) =
      some (1, [.line (vFrame.drop 1), .line [0x55#8]]) := by decide +kernel
/-- The bodies of 95_test_vectors.md section 2.3, framed. -/
theorem test_bodies :
    sent .bodyFwVersion State.reset = some ([[0x02#8, 0x01#8, 0x00#8, 0x00#8, 0x00#8, 0x03#8]], [⟨.ok, none⟩]) ∧
    sent .bodyGetValues State.reset = some ([[0x02#8, 0x01#8, 0x04#8, 0x40#8, 0x84#8, 0x03#8]], [⟨.ok, none⟩]) ∧
    sent (.bodySetDuty 50000) State.reset = some ([vFrame], [⟨.ok, none⟩]) ∧
    sent (.bodySetCurrent 10000) State.reset =
      some ([[0x02#8, 0x05#8, 0x06#8, 0x00#8, 0x00#8, 0x27#8, 0x10#8, 0x40#8, 0xC5#8, 0x03#8]], [⟨.ok, none⟩]) := by decide +kernel
/-- The other bodies of 95_test_vectors.md section 2.3, framed. -/
theorem test_bodies_more :
    sent (.bodySetBrake 5000) State.reset =
      some ([[0x02#8, 0x05#8, 0x07#8, 0x00#8, 0x00#8, 0x13#8, 0x88#8, 0x21#8, 0x74#8, 0x03#8]], [⟨.ok, none⟩]) ∧
    sent (.bodySetRpm 3000) State.reset =
      some ([[0x02#8, 0x05#8, 0x08#8, 0x00#8, 0x00#8, 0x0B#8, 0xB8#8, 0xF8#8, 0x04#8, 0x03#8]], [⟨.ok, none⟩]) ∧
    sent (.bodySetPos 90000000) State.reset =
      some ([[0x02#8, 0x05#8, 0x09#8, 0x05#8, 0x5D#8, 0x4A#8, 0x80#8, 0x7B#8, 0x29#8, 0x03#8]], [⟨.ok, none⟩]) ∧
    sent (.bodySetServo 500) State.reset =
      some ([[0x02#8, 0x03#8, 0x0C#8, 0x01#8, 0xF4#8, 0xE9#8, 0xCB#8, 0x03#8]], [⟨.ok, none⟩]) := by decide +kernel
/-- 95_test_vectors.md section 2.5: op 0x03 returns ILLEGAL_OP. -/
theorem test_illegalOp :
    (nextState (step (presenting (.ops [0x03#8, 0x02#8])))).map (fun t => (t.hostRes, t.input)) =
      some ([⟨.illegalOp, none⟩], [.ops [0x02#8]]) := by decide +kernel
/-- 70_reset_and_hazards.md R230. -/
theorem test_reset_input :
    (nextState (step { presenting .reset with
      crcReg := 0x31C3#16, rxState := .readLen, txOut := [vFrame], rxEvt := [.checksumError] })) =
      some { State.reset with txOut := [vFrame], rxEvt := [.checksumError] } := by decide +kernel

/-! ### Witnesses: for each statement with hypotheses, states and operands that meet them all -/

theorem exists_bytes_of_length (n : Nat) : ∃ bs : List Byte, bs.length = n := ⟨List.replicate n 0#8, List.length_replicate⟩
theorem stateInv_reset : StateInv State.reset := ⟨by decide, by decide⟩
theorem sourceWire_default : SourceWire Config.default := ⟨rfl, rfl⟩
theorem sourceWire_withMax (n : Nat) : SourceWire (withMax n).cfg := ⟨rfl, rfl⟩
theorem sourceRounding_default : SourceRounding Config.default := ⟨rfl, rfl⟩
theorem stateInv_presenting (i : Input) : StateInv (presenting i) := ⟨test_config_default_admitted, rfl⟩

theorem witness_resetSetsResetValues :
    StateInv (presenting .reset) ∧ SourceWire (presenting .reset).cfg ∧ (presenting .reset).input = .reset :: [] :=
  ⟨stateInv_presenting _, sourceWire_default, rfl⟩
theorem witness_stepKeepsInvariant :
    StateInv (presenting (.line vFrame)) ∧ (nextState (step (presenting (.line vFrame)))).isSome = true :=
  ⟨stateInv_presenting _, by decide +kernel⟩
theorem witness_stepStopsOnlyAtTruncatedStream :
    StateInv (presenting (.ops [0x01#8])) ∧ nextState (step (presenting (.ops [0x01#8]))) = none ∧
      StateInv State.reset ∧ nextState (step State.reset) = some State.reset :=
  ⟨stateInv_presenting _, by decide +kernel, stateInv_reset, by decide +kernel⟩
theorem witness_faultExactlyInBrokenReceiveState :
    { State.reset with rxState := .readBody }.cfg.ok = true ∧ { State.reset with rxState := .readBody }.rxInv = false ∧
      step { State.reset with rxState := .readBody } = .fault .rxStateBroken := ⟨by decide, by decide, rfl⟩
theorem witness_brokenConfigurationRefused : step (withMax 65536) = .refused .badConfig ∧
    nextState (step (withMax 65535)) = some (withMax 65535) := ⟨rfl, by decide +kernel⟩
theorem witness_stepRunsDecodedInstruction :
    StateInv (presenting (.ops [0x02#8])) ∧ decodeOp [0x02#8] = .ok (.crcRead, []) ∧
    StateInv (presenting (.line vFrame)) ∧ decodeFrame Config.default vFrame = .ok (.frameShort vBody 0x3AA5#16 0x03#8, []) ∧
    StateInv (presenting (.body [0x04#8])) ∧ decodeBody Config.default [0x04#8] = .ok .bodyGetValues :=
  ⟨stateInv_presenting _, by decide, stateInv_presenting _, by decide, stateInv_presenting _, by decide⟩
theorem witness_stepTakesEverythingElsePresented :
    StateInv (presenting (.line [0x55#8])) ∧ decodeFrame Config.default [0x55#8] = .error .notAFrame ∧
    StateInv (presenting (.body [0x0B#8])) ∧ decodeBody Config.default [0x0B#8] = .error .notACommandBody ∧
    StateInv (presenting (.ops [])) ∧ StateInv State.reset ∧ State.reset.input = [] :=
  ⟨stateInv_presenting _, by decide, stateInv_presenting _, by decide, stateInv_presenting _, stateInv_reset, rfl⟩
theorem witness_unassignedOpReturnsIllegalOp :
    StateInv (presenting (.ops [0x03#8])) ∧ 0x03#8 ∉ assignedOps ∧ 0xFF#8 ∉ assignedOps ∧ 0x31#8 ∉ assignedOps :=
  ⟨stateInv_presenting _, by decide, by decide, by decide⟩
theorem witness_truncatedOperationRefused :
    (Instr.frameEncode 0x05#8 [0x00#8]).space = .op ∧ WellFormed Config.default (.frameEncode 0x05#8 [0x00#8]) = true ∧
      4 < (encode Config.default (.frameEncode 0x05#8 [0x00#8])).length ∧
      StateInv (presenting (.ops ((encode Config.default (.frameEncode 0x05#8 [0x00#8])).take 4))) :=
  ⟨rfl, by decide, by decide, stateInv_presenting _⟩
theorem witness_streamsAreAppendOnly :
    (nextState (step (presenting (.ops [0x21#8])))).map (·.txOut.length) = some 1 := by decide +kernel
theorem witness_decodeOfEncodeIsIdentity :
    Config.default.ok = true ∧ Config.default.framing.startShort ≠ Config.default.framing.startLong ∧
      WellFormed Config.default (.bodySetServo (-32768)) = true ∧ WellFormed Config.default (.rxByte 0xFF#8) = true ∧
      ∃ bs : List Byte, bs.length = 255 ∧ WellFormed Config.default (.frameShort bs 0#16 0#8) = true :=
  ⟨by decide, by decide, by decide, by decide, (exists_bytes_of_length 255).imp fun _ h => ⟨h, by simp [WellFormed, h]⟩⟩
theorem witness_encodeOfDecodeIsIdentity :
    Config.default.ok = true ∧ decodeIn Config.default .op [0x30#8, 0x02#8, 0x00#8] = .ok (.rxByte 0x02#8, [0x00#8]) ∧
      decodeIn Config.default .frame vFrame = .ok (.frameShort vBody 0x3AA5#16 0x03#8, []) ∧
      decodeIn Config.default .body vBody = .ok (.bodySetDuty 50000, []) := by decide
theorem witness_crc : State.reset.cfg.crc = CrcParams.source := rfl
theorem witness_crcIsLinear : [0x00#8, 0xFF#8].length = [0x80#8, 0x01#8].length := rfl
theorem witness_crcDetectsEverySingleBit : 7 < 8 * [0x00#8].length ∧
    ∃ bs : List Byte, bs.length = 4097 ∧ 8 + 32767 < 8 * bs.length :=
  ⟨by decide, (exists_bytes_of_length 4097).imp fun _ h => ⟨h, by omega⟩⟩
theorem witness_frameEncodeEmitsFrame :
    SourceWire (withMax 5).cfg ∧ [0#8, 0#8, 0#8, 0#8].length + 1 ≤ (withMax 5).cfg.maxLen ∧
      SourceWire (withMax 4).cfg ∧ (withMax 4).cfg.maxLen < [0#8, 0#8, 0#8, 0#8].length + 1 ∧
      ∃ payload : List Byte, payload.length = 65535 ∧ payload.length ≤ 65535 :=
  ⟨sourceWire_withMax _, by decide, sourceWire_withMax _, by decide,
    (exists_bytes_of_length 65535).imp fun _ h => ⟨h, h.le⟩⟩
set_option maxRecDepth 100000 in
theorem witness_frameShape :
    SourceWire Config.default ∧ Config.default.ok = true ∧
      decodesOk ((makeFrame Config.default (List.replicate 255 0xAA#8)).mapError fun _ => .truncated) = true ∧
      decodesOk ((makeFrame Config.default (List.replicate 256 0xAA#8)).mapError fun _ => .truncated) = true :=
  ⟨sourceWire_default, by decide, by decide +kernel, by decide +kernel⟩
theorem witness_requestsSendTheirId :
    SourceWire (withMax 1).cfg ∧ 1 ≤ (withMax 1).cfg.maxLen ∧ SourceWire (withMax 0).cfg ∧ (withMax 0).cfg.maxLen = 0 :=
  ⟨sourceWire_withMax _, by decide, sourceWire_withMax _, rfl⟩

/-- All of a setting command's checks pass, with the value given and the shortest `MAX_LEN` that admits its body. -/
def passes (p : CmdParams) (x : Word64) (q : Int) (maxLen : Nat) : Bool :=
  finite64 x && inDomain p.domain (val64 x) &&
    ((fl64 (val64 x * p.scale)).map fun r => decide (roundHalfAway r = q)) == some true && inWidth p.width q &&
    1 + (argBytes p.width q).length == maxLen

theorem witness_settingCommandsSend :
    SourceWire (withMax 5).cfg ∧ SourceWire (withMax 3).cfg ∧ SourceRounding (withMax 5).cfg ∧
    passes Config.default.duty 0xBFF0000000000000#64 (-100000) 5 = true ∧
    passes Config.default.current 0x4140624DD2D0E560#64 2147483647 5 = true ∧
    passes Config.default.brake 0x3FB0000000000000#64 63 5 = true ∧
    passes Config.default.rpm 0xC1E0000000000000#64 (-2147483648) 5 = true ∧
    passes Config.default.pos 0x40A0C6F7A0945F9E#64 2147483647 5 = true ∧
    passes Config.default.servo 0x3FF0000000000000#64 1000 3 = true :=
  ⟨sourceWire_withMax _, sourceWire_withMax _, sourceRounding_default, by decide +kernel, by decide +kernel,
    by decide +kernel, by decide +kernel, by decide +kernel, by decide +kernel⟩
/-- One witness for each clause: NaN; just outside the domain; an infinite product; just out of width; a body longer than
`MAX_LEN`. -/
theorem witness_settingCommandsRaiseInOrder :
    finite64 0x7FF8000000000000#64 = false ∧
    (finite64 0x3FF0000000000001#64 && !inDomain Config.default.duty.domain (val64 0x3FF0000000000001#64)) = true ∧
    (finite64 0x7FE1CCF385EBC8A0#64 && (fl64 (val64 0x7FE1CCF385EBC8A0#64 * 1000)).isNone) = true ∧
    (finite64 0x41DFFFFFFFE00000#64 &&
      ((fl64 (val64 0x41DFFFFFFFE00000#64 * 1)).map fun r => inWidth 4 (roundHalfAway r)) == some false) = true ∧
    (passes Config.default.duty 0x3FE0000000000000#64 50000 5 = true ∧ (withMax 4).cfg.maxLen < 5) := by decide +kernel
theorem witness_bodyRowsSend :
    SourceWire (withMax 5).cfg ∧ 1 + (argBytes Config.default.duty.width (-1)).length ≤ (withMax 5).cfg.maxLen ∧
      (withMax 4).cfg.maxLen < 1 + (argBytes Config.default.duty.width (-1)).length :=
  ⟨sourceWire_withMax _, by decide, by decide⟩
theorem witness_commandsEqualFrameEncode :
    fxEncode .binary64 .awayFromZero Config.default.pos 0x4056800000000000#64 = .ok 90000000 := by decide +kernel
theorem witness_val64IsIeeeValue :
    finite64 0x0000000000000001#64 = true ∧ finite64 0xFFEFFFFFFFFFFFFF#64 = true := by decide
/-- A finite result, an infinite one, and a tie between two neighbours (2^53 + 1 units). -/
theorem witness_fl64IsNearestEven :
    fl64 (2 ^ 53 + 1) = some (2 ^ 53) ∧ val64 0x0020000000000000#64 = 2 ^ 53 ∧ val64 0x0020000000000001#64 = 2 ^ 53 + 2 ∧
      (fl64 ((pow2 1024 - pow2 970) * unit64 : Nat)).isNone = true ∧
      (fl64 ((pow2 1024 - pow2 970) * unit64 - 1 : Nat)).isSome = true := by decide +kernel
theorem witness_dutyAndServoAlwaysFit :
    finite64 0x3FF0000000000000#64 = true ∧ realValue 0x3FF0000000000000#64 = 1 ∧
      finite64 0xBFF0000000000000#64 = true ∧ realValue 0xBFF0000000000000#64 = -1 ∧
      finite64 0x8000000000000000#64 = true ∧ realValue 0x8000000000000000#64 = 0 := by
  have hu : (unit64 : ℚ) ≠ 0 := by exact_mod_cast unit64_pos.ne'
  refine ⟨by decide, ?_, by decide, ?_, by decide, ?_⟩
  · rw [realValue, show val64 0x3FF0000000000000#64 = unit64 by decide +kernel]
    exact div_self hu
  · rw [realValue, show val64 0xBFF0000000000000#64 = -(unit64 : Int) by decide +kernel]
    push_cast
    rw [neg_div, div_self hu]
  · rw [realValue, show val64 0x8000000000000000#64 = 0 by decide +kernel]
    simp
theorem witness_fixedPointRoundTrip :
    Config.default.rpm.ok = true ∧ finite64 0x3FF0000000000000#64 = true ∧
      inDomain Config.default.rpm.domain (val64 0x3FF0000000000000#64) = true ∧
      realValue 0x3FF0000000000000#64 * Config.default.rpm.scale = (1 : Int) ∧ inWidth Config.default.rpm.width 1 = true ∧
      fxEncode .binary64 .awayFromZero Config.default.rpm 0x3FF0000000000000#64 = .ok 1 ∧
      (fl64 (val64 0x3FF0000000000000#64 * 1)).isSome = true := by
  refine ⟨by decide, by decide, by decide, ?_, by decide, by decide +kernel, by decide +kernel⟩
  rw [witness_dutyAndServoAlwaysFit.2.1]
  norm_num [Config.default]
theorem witness_negatedArgumentEncodesNegated :
    Config.default.current.domain = .allFinite ∧
      fxEncode .binary64 .awayFromZero Config.default.current 0x4140624DD2D0E560#64 = .ok 2147483647 ∧
      inWidth Config.default.current.width (-2147483647) = true := by decide +kernel

/-- A state in the middle of the length field of the long form. -/
def midLength : State := { State.reset with rxState := .readLen, rxForm := .long, rxLen := 0x0100#16, rxCnt := 1#16 }
/-- A state with one body byte to come. -/
def midBody : State := { State.reset with rxState := .readBody, rxLen := 2#16, rxCnt := 1#16, rxBody := [0x05#8] }
/-- A state in the middle of the checksum field. -/
def midCrc : State :=
  { State.reset with rxState := .readCrc, rxLen := 1#16, rxCnt := 1#16, rxBody := [0x04#8], rxCrc := 0x4000#16 }

theorem witness_rxSeeking : State.reset.cfg.framing = FramingParams.source ∧ State.reset.rxState = .seeking := ⟨rfl, rfl⟩
/-- Each clause: the long form's first byte; a length above `MAX_LEN`, a length of 0, the largest admitted length. -/
theorem witness_rxReadLen :
    ({ midLength with rxCnt := 0#16 }.rxInv && midLength.rxInv) = true ∧
    { midLength with cfg := { Config.default with maxLen := 256 } }.cfg.maxLen < midLength.rxLen.toNat + (0x01#8 : Byte).toNat ∧
    ({ State.reset with rxState := .readLen }.rxInv) = true ∧ (0x00#8 : Byte).toNat = 0 ∧
    midLength.rxLen.toNat + (0x00#8 : Byte).toNat ≤ 256 := by decide
theorem witness_rxReadBody : midBody.rxInv = true ∧ midBody.rxState = .readBody ∧
    midBody.rxBody.length + 1 = midBody.rxLen.toNat := by decide
theorem witness_rxReadCrc : midCrc.rxInv = true ∧ midCrc.rxState = .readCrc ∧ midCrc.rxCnt = 1#16 ∧
    ({ midCrc with rxCnt := 0#16 }.rxInv) = true := by decide
theorem witness_rxReadEnd :
    SourceWire { midCrc with rxState := .readEnd }.cfg ∧ { midCrc with rxState := .readEnd }.rxState = .readEnd :=
  ⟨sourceWire_default, rfl⟩
theorem witness_wholeFrameReceived :
    SourceWire (withMax 5).cfg ∧ (withMax 5).rxState = .seeking ∧ vBody.length ≤ (withMax 5).cfg.maxLen ∧
      vBody.length ≤ 255 := ⟨sourceWire_withMax _, rfl, by decide, by decide⟩
/-- The long clause at its shortest body and at its longest, which the short clause does not cover. -/
theorem witness_wholeLongFrameReceived :
    SourceWire State.reset.cfg ∧ State.reset.rxState = .seeking ∧ ([] : List Byte).length ≤ (withMax 0).cfg.maxLen ∧
      ∃ bs : List Byte, bs.length = 65535 ∧ bs.length ≤ State.reset.cfg.maxLen :=
  ⟨sourceWire_default, rfl, by decide, (exists_bytes_of_length 65535).imp fun _ h => ⟨h, by simp [h, State.reset, Config.default]⟩⟩
theorem witness_frameRows : StateInv State.reset ∧ ∃ body crc last, Instr.frameShort [0x04#8] 0x4084#16 0x03#8 =
    .frameShort body crc last := ⟨stateInv_reset, _, _, _, rfl⟩
theorem witness_stepTakesOneLineByte :
    StateInv (presenting (.line vFrame)) ∧ (presenting (.line vFrame)).input = .line (0x02#8 :: vFrame.drop 1) :: [] ∧
      StateInv (presenting (.line [0x55#8])) := ⟨stateInv_presenting _, rfl, stateInv_presenting _⟩
/-- A step that posts an event, and a byte discarded in `SEEKING`. -/
theorem witness_rxErrorsReturnToSeeking :
    State.reset.cfg.framing = FramingParams.source ∧ State.reset.rxState = .seeking ∧
      (nextState (exec (.rxByte 0x55#8) State.reset)).map (·.rxState) = some .seeking ∧
      (nextState (exec (.rxByte 0x55#8) { midCrc with rxState := .readEnd })).map (·.rxEvt) = some [.invalidEndMarker] := by
  refine ⟨rfl, rfl, ?_, ?_⟩ <;> decide +kernel
theorem witness_frameRoundTrip :
    SourceWire State.reset.cfg ∧ State.reset.cfg.ok = true ∧ State.reset.rxState = .seeking ∧
      (makeFrame State.reset.cfg vBody = .ok vFrame) := ⟨sourceWire_default, by decide, rfl, by decide +kernel⟩
/-- The first and the last bit the statement covers. -/
theorem witness_singleBitCorruptionDetected :
    8 * (vFrame.length - vBody.length - 3) ≤ 16 ∧ 16 < 8 * (vFrame.length - 1) ∧ 71 < 8 * (vFrame.length - 1) := by decide
theorem witness_rxReturnsToSeekingInTime :
    midBody.rxInv = true ∧ { midBody with cfg := { Config.default with maxLen := 2 } }.rxInv = true ∧
      (List.replicate 7 0x02#8).length = 2 + 5 := by decide
theorem witness_resynchronisation : ∀ b ∈ [0x55#8, 0xAA#8, 0x00#8, 0xFF#8], b ≠ 0x02#8 ∧ b ≠ 0x03#8 := by decide
theorem witness_noOversizedFrame : State.reset.cfg.maxLen = 65535 ∧ (nextState (step State.reset)).isSome = true := by
  decide +kernel
theorem witness_lineChunk : StateInv (presenting (.line (0x55#8 :: vFrame))) ∧ (0x55#8 :: vFrame) ≠ [] :=
  ⟨stateInv_presenting _, by decide⟩
theorem witness_ports : onLine .crcRead = false ∧ onLine (.rxByte 0#8) = true ∧
    (nextState (exec .crcRead State.reset)).isSome = true ∧ (nextState (exec (.rxByte 0#8) State.reset)).isSome = true := by
  decide
theorem witness_transmitIsAtomic : (nextState (exec .cmdGetValues State.reset)).isSome = true ∧
    (nextState (exec .cmdGetValues (withMax 0))).isSome = true := by decide +kernel

end Sys2Proof.Tests
end

section
/-! PROOFS. The statements of 00_scope.md: which configurations the step refuses (R3) and which instruction it runs
(R9). -/

namespace Sys2Proof.Machine

/-! ### Configurations and the step -/

/-- The constraints on one setting command (00_scope.md R3), as a proposition. -/
theorem cmdParams_ok_iff (p : CmdParams) : p.ok = true ↔ 0 < p.scale ∧ (p.width = 2 ∨ p.width = 4) := by
  simp [CmdParams.ok]

/-- The constraints on a configuration (00_scope.md R3), as a proposition. -/
theorem config_ok_iff (c : Config) :
    c.ok = true ↔ c.maxLen ≤ 65535 ∧ c.cmdIds.Nodup ∧
      ∀ p ∈ [c.duty, c.current, c.brake, c.rpm, c.pos, c.servo], 0 < p.scale ∧ (p.width = 2 ∨ p.width = 4) := by
  simp only [Config.ok, Bool.and_eq_true, decide_eq_true_eq, cmdParams_ok_iff, List.forall_mem_cons,
    List.not_mem_nil, false_imp_iff, implies_true, and_true, and_assoc]

theorem step_of_config_not_ok {s : State} (h : s.cfg.ok = false) : step s = .refused .badConfig := by
  simp [step, h]

/-- Under an admitted configuration a step answers with another reason or goes on: `badConfig` is the configuration
check's alone. -/
theorem step_ne_badConfig {s : State} (h : s.cfg.ok = true) : step s ≠ .refused .badConfig := by
  unfold step
  rw [if_neg (by simp [h])]
  split
  · simp
  · cases hf : fetch s with
    | run i rest =>
      obtain ⟨t, ht⟩ := exec_answers_next i { s with input := rest }
      simp [ht]
    | idle | reset | illegal | truncated => simp

theorem step_eq_badConfig_iff (s : State) : step s = .refused .badConfig ↔ ¬ s.cfg.ok = true := by
  refine ⟨fun h hok => step_ne_badConfig hok h, fun h => step_of_config_not_ok ?_⟩
  simpa using h

/-- Settles O2: `badConfig` is the answer of the first check, which tests the constraints of R3 and nothing else. -/
theorem brokenConfigurationRefused : Obligations.BrokenConfigurationRefused := by
  intro s
  rw [step_eq_badConfig_iff, config_ok_iff]
  rfl

/-- A step in a state that meets the invariant runs the instruction it fetches. -/
theorem step_of_fetch_run {s : State} {i : Instr} {rest : List Input} (hs : StateInv s) (hf : fetch s = .run i rest) :
    step s = exec i { s with input := rest } := by
  obtain ⟨hcfg, hrx⟩ := hs
  simp [step, hcfg, hrx, hf]

theorem fetch_ops {s : State} {i : Instr} {bs tail : List Byte} {rest : List Input} (hin : s.input = .ops bs :: rest)
    (hd : decodeOp bs = .ok (i, tail)) : fetch s = .run i (putBack .ops tail rest) := by
  cases bs with
  | nil => simp [decodeOp] at hd
  | cons b bs => simp [fetch, hin, fetchFrom, fetchOps, hd]

theorem fetch_line {s : State} {i : Instr} {bs tail : List Byte} {rest : List Input} (hin : s.input = .line bs :: rest)
    (hd : decodeFrame s.cfg bs = .ok (i, tail)) : fetch s = .run i (putBack .line tail rest) := by
  cases bs with
  | nil => simp [decodeFrame] at hd
  | cons b bs => simp [fetch, hin, fetchFrom, fetchLine, hd]

theorem fetch_body {s : State} {i : Instr} {bs : List Byte} {rest : List Input} (hin : s.input = .body bs :: rest)
    (hd : decodeBody s.cfg bs = .ok i) : fetch s = .run i rest := by
  cases bs with
  | nil => simp [decodeBody] at hd
  | cons b bs => simp [fetch, hin, fetchFrom, fetchBody, hd]

/-- Settles O7: in each presented form, what decodes is what is fetched, and the step runs it. -/
theorem stepRunsDecodedInstruction : Obligations.StepRunsDecodedInstruction := by
  intro s i bs tail rest hs
  exact ⟨fun hin hd => step_of_fetch_run hs (fetch_ops hin hd), fun hin hd => step_of_fetch_run hs (fetch_line hin hd),
    fun hin hd => step_of_fetch_run hs (fetch_body hin hd)⟩

end Sys2Proof.Machine
end

section
/-! PROOFS. The binary64 numbers of 00_scope.md R8: the value of a pattern and the rounding `fl64`. -/

namespace Sys2Proof

/-! ### The value of a pattern -/

theorem mag64_of_exp_zero {x : Word64} (h : exp64 x = 0) : mag64 x = frac64 x := by
  simp [mag64, h]

theorem mag64_of_exp_ne_zero {x : Word64} (h : exp64 x ≠ 0) : mag64 x = (2 ^ 52 + frac64 x) * 2 ^ (exp64 x - 1) := by
  simp [mag64, h, pow2_eq]

theorem frac64_lt (x : Word64) : frac64 x < 2 ^ 52 := (x.extractLsb' 0 52).isLt

/-- Units of 2^-1074 as powers of two: 2^a units are the real 2^(a - 1074). -/
theorem two_pow_div_unit64 (a : Nat) : (2 : ℚ) ^ a / (unit64 : ℚ) = 2 ^ ((a : ℤ) - 1074) := by
  rw [unit64, pow2_eq, zpow_sub₀ two_ne_zero, zpow_natCast, Nat.cast_pow, Nat.cast_ofNat, zpow_ofNat]

theorem val64_eq_sign_mul (x : Word64) : val64 x = (if x.getMsbD 0 then -1 else 1) * (mag64 x : Int) := by
  unfold val64 sign64
  split <;> simp

/-- The magnitude of a pattern as a real, in the form the IEEE 754 format gives it. -/
theorem mag64_div_unit64 (x : Word64) : (mag64 x : ℚ) / (unit64 : ℚ) =
    if exp64 x = 0 then (frac64 x : ℚ) * 2 ^ (-1074 : ℤ)
    else (2 ^ 52 + (frac64 x : ℚ)) * 2 ^ ((exp64 x : ℤ) - 1075) := by
  split
  case isTrue h =>
    rw [mag64_of_exp_zero h, div_eq_mul_one_div, ← pow_zero (2 : ℚ), two_pow_div_unit64]
    norm_num
  case isFalse h =>
    have hexp : ((exp64 x - 1 : Nat) : ℤ) - 1074 = (exp64 x : ℤ) - 1075 := by omega
    rw [mag64_of_exp_ne_zero h, ← hexp, ← two_pow_div_unit64]
    push_cast
    ring

/-- Settles O33: the units of the model are the weight 2^-1074 of the format's last bit. -/
theorem val64IsIeeeValue : Obligations.Val64IsIeeeValue := by
  intro x _
  have hsign : ((val64 x : ℤ) : ℚ) = (if x.getMsbD 0 then -1 else 1) * (mag64 x : ℚ) := by
    rw [val64_eq_sign_mul]
    split <;> simp
  rw [Machine.realValue, hsign, mul_div_assoc, mag64_div_unit64]
  rfl

/-! ### The patterns that have a given magnitude -/

/-- The binary64 pattern with the given sign, exponent field and fraction field. -/
def pattern64 (sign : Bool) (e f : Nat) : Word64 := BitVec.ofNat 64 (sign.toNat * 2 ^ 63 + e * 2 ^ 52 + f)

section Pattern
variable (sign : Bool) {e f : Nat} (he : e < 2048) (hf : f < 2 ^ 52)
include he hf

theorem pattern64_toNat : (pattern64 sign e f).toNat = sign.toNat * 2 ^ 63 + e * 2 ^ 52 + f := by
  have := sign.toNat_lt
  rw [pattern64, BitVec.toNat_ofNat, Nat.mod_eq_of_lt (by omega)]

theorem sign64_pattern64 : sign64 (pattern64 sign e f) = sign := by
  have hmsb : sign64 (pattern64 sign e f) = decide (2 ^ 63 ≤ (pattern64 sign e f).toNat) := BitVec.msb_eq_decide _
  rw [hmsb, pattern64_toNat sign he hf]
  cases sign <;> simp <;> omega

theorem exp64_pattern64 : exp64 (pattern64 sign e f) = e := by
  rw [exp64, BitVec.extractLsb'_toNat, pattern64_toNat sign he hf, Nat.shiftRight_eq_div_pow]
  omega

theorem frac64_pattern64 : frac64 (pattern64 sign e f) = f := by
  rw [frac64, BitVec.extractLsb'_toNat, pattern64_toNat sign he hf, Nat.shiftRight_zero]
  omega

end Pattern

theorem finite64_iff (x : Word64) : finite64 x = true ↔ exp64 x ≠ 2047 := by
  simp [finite64]

/-- Every magnitude a finite exponent field and a fraction field describe is taken by a finite pattern of either sign. -/
theorem exists_finite64_of_fields (sign : Bool) {e f : Nat} (he : e < 2047) (hf : f < 2 ^ 52) :
    ∃ x, finite64 x = true ∧ sign64 x = sign ∧ exp64 x = e ∧ frac64 x = f := by
  have hexp : exp64 (pattern64 sign e f) = e := exp64_pattern64 sign (by omega) hf
  exact ⟨pattern64 sign e f, (finite64_iff _).2 (by omega), sign64_pattern64 sign (by omega) hf, hexp,
    frac64_pattern64 sign (by omega) hf⟩

/-- Every integer of at most 53 bits, times a power of two that keeps it in the range, is the magnitude of a finite
pattern of either sign. -/
theorem exists_finite_mag64 (sign : Bool) {q d : Nat} (hlo : d = 0 ∨ 2 ^ 52 ≤ q) (hhi : q ≤ 2 ^ 53)
    (hd : d ≤ 2045) (htop : d = 2045 → q < 2 ^ 53) :
    ∃ x, finite64 x = true ∧ sign64 x = sign ∧ mag64 x = q * 2 ^ d := by
  by_cases hsub : q < 2 ^ 52
  · obtain ⟨x, hfin, hsign, hexp, hfrac⟩ := exists_finite64_of_fields sign (e := 0) (by omega) hsub
    have hd0 : d = 0 := hlo.resolve_right (by omega)
    exact ⟨x, hfin, hsign, by rw [mag64_of_exp_zero hexp, hfrac, hd0, pow_zero, mul_one]⟩
  · by_cases hnorm : q < 2 ^ 53
    · obtain ⟨x, hfin, hsign, hexp, hfrac⟩ :=
        exists_finite64_of_fields sign (e := d + 1) (f := q - 2 ^ 52) (by omega) (by omega)
      refine ⟨x, hfin, hsign, ?_⟩
      rw [mag64_of_exp_ne_zero (by omega), hexp, hfrac, Nat.add_sub_cancel, Nat.add_sub_cancel' (by omega)]
    · obtain ⟨x, hfin, hsign, hexp, hfrac⟩ :=
        exists_finite64_of_fields sign (e := d + 2) (f := 0) (by omega) (by omega)
      refine ⟨x, hfin, hsign, ?_⟩
      rw [mag64_of_exp_ne_zero (by omega), hexp, hfrac, show q = 2 ^ 53 by omega, Nat.add_succ_sub_one, pow_succ]
      ring

/-- Between the multiples of 2^d no pattern has a magnitude of 2^(52 + d) or more: 53 significant bits do not reach
further. -/
theorem two_pow_dvd_mag64_or_lt (x : Word64) (d : Nat) : 2 ^ d ∣ mag64 x ∨ (0 < d ∧ mag64 x < 2 ^ (52 + d)) := by
  have hfrac := frac64_lt x
  rcases Nat.eq_zero_or_pos d with rfl | hpos
  · exact .inl (one_dvd _)
  by_cases hexp : exp64 x = 0
  · refine .inr ⟨hpos, ?_⟩
    calc mag64 x = frac64 x := mag64_of_exp_zero hexp
      _ < 2 ^ 52 := hfrac
      _ ≤ 2 ^ (52 + d) := Nat.pow_le_pow_right two_pos (by omega)
  · rw [mag64_of_exp_ne_zero hexp]
    by_cases hd : d ≤ exp64 x - 1
    · exact .inl (Dvd.dvd.mul_left (pow_dvd_pow 2 hd) _)
    · refine .inr ⟨hpos, ?_⟩
      calc (2 ^ 52 + frac64 x) * 2 ^ (exp64 x - 1) < 2 ^ 53 * 2 ^ (exp64 x - 1) :=
            Nat.mul_lt_mul_of_pos_right (by omega) (by positivity)
        _ = 2 ^ (53 + (exp64 x - 1)) := (pow_add ..).symm
        _ ≤ 2 ^ (52 + d) := Nat.pow_le_pow_right two_pos (by omega)

/-- A magnitude of 53 significant bits whose last is 0 has an even fraction field. -/
theorem frac64_even_of_mag64_eq {x : Word64} {q d : Nat} (h : mag64 x = q * 2 ^ d) (hd : 0 < d) (heven : q % 2 = 0)
    (hlo : 2 ^ 52 ≤ q) (hhi : q ≤ 2 ^ 53) : frac64 x % 2 = 0 := by
  have hfrac := frac64_lt x
  have hpos : 0 < 2 ^ d := by positivity
  by_cases hexp : exp64 x = 0
  · have : q * 1 < q * 2 ^ d := Nat.mul_lt_mul_of_pos_left (Nat.one_lt_two_pow hd.ne') (by omega)
    rw [mag64_of_exp_zero hexp] at h
    omega
  · rw [mag64_of_exp_ne_zero hexp] at h
    obtain ⟨k, hk⟩ | ⟨k, hk⟩ : (∃ k, exp64 x - 1 + k = d) ∨ (∃ k, exp64 x - 1 = d + (k + 1)) := by
      by_cases hle : exp64 x - 1 ≤ d
      · exact .inl ⟨d - (exp64 x - 1), by omega⟩
      · exact .inr ⟨exp64 x - 1 - d - 1, by omega⟩
    · rw [← hk, pow_add, ← mul_assoc, mul_right_comm] at h
      have hq : 2 ^ 52 + frac64 x = q * 2 ^ k := Nat.eq_of_mul_eq_mul_right (by positivity) h
      have : (q * 2 ^ k) % 2 = 0 := by rw [Nat.mul_mod, heven, zero_mul, Nat.zero_mod]
      omega
    · rw [hk, pow_add, ← mul_assoc, mul_right_comm] at h
      have hq : (2 ^ 52 + frac64 x) * 2 ^ (k + 1) = q := Nat.eq_of_mul_eq_mul_right hpos h
      have : (2 ^ 52 + frac64 x) * 2 ≤ (2 ^ 52 + frac64 x) * 2 ^ (k + 1) :=
        Nat.mul_le_mul_left _ (Nat.le_self_pow (by omega) 2)
      omega

/-! ### Rounding to a multiple of a power of two -/

/-- Rounding to the multiples of 2^k: at most half of 2^k away, and exactly half only at an even multiple. -/
theorem roundEvenAt_spec (k n : Nat) : ∃ q, roundEvenAt k n = q * 2 ^ k ∧
    2 * ((n : Int) - roundEvenAt k n).natAbs ≤ 2 ^ k ∧
    (2 * ((n : Int) - roundEvenAt k n).natAbs = 2 ^ k → q % 2 = 0) := by
  have hdiv : 2 ^ k * (n / 2 ^ k) + n % 2 ^ k = n := Nat.div_add_mod n (2 ^ k)
  have hmod : n % 2 ^ k < 2 ^ k := Nat.mod_lt _ (by positivity)
  simp only [roundEvenAt, pow2_eq]
  generalize n / 2 ^ k = q at *
  generalize n % 2 ^ k = rem at *
  generalize 2 ^ k = g at *
  rw [mul_comm] at hdiv
  split
  · refine ⟨q + 1, rfl, ?_, ?_⟩ <;> rw [add_mul, one_mul] <;> omega
  · refine ⟨q, rfl, ?_, ?_⟩ <;> rw [add_zero] <;> omega

/-- Of the multiples of g, one at most g/2 away from n is the nearest, and another is as near only at exactly g/2. -/
theorem nearest_of_dvd {g : Nat} {n R v : Int} (hR : (g : Int) ∣ R) (hv : (g : Int) ∣ v) (hne : v ≠ R)
    (hhalf : 2 * (n - R).natAbs ≤ g) :
    (n - R).natAbs ≤ (n - v).natAbs ∧ ((n - R).natAbs = (n - v).natAbs → 2 * (n - R).natAbs = g) := by
  have hgap : g ≤ (v - R).natAbs := Nat.le_of_dvd (by omega) (Int.natCast_dvd.1 (dvd_sub hv hR))
  omega

/-! ### The magnitude of `fl64` -/

theorem lt_two_pow_dropBits64 (n : Nat) : n < 2 ^ (53 + dropBits64 n) :=
  Nat.lt_log2_self.trans_le (Nat.pow_le_pow_right two_pos (by unfold dropBits64; omega))

theorem two_pow_dropBits64_le {n : Nat} (h : 0 < dropBits64 n) : 2 ^ (52 + dropBits64 n) ≤ n := by
  have hlog : 52 + dropBits64 n = n.log2 := by unfold dropBits64 at *; omega
  have hn : n ≠ 0 := by
    rintro rfl
    simp [dropBits64] at h
  rw [hlog]
  exact Nat.log2_self_le hn

theorem two_mul_threshold_add (k u : Nat) :
    2 * ((2 ^ (k + 54) - 2 ^ k) * 2 ^ u) + 2 ^ (k + u + 1) = 2 * (2 ^ 53 * 2 ^ (k + u + 1)) := by
  have hk : 2 ^ (k + 54) - 2 ^ k = (2 ^ 54 - 1) * 2 ^ k := by rw [pow_add, mul_comm, Nat.sub_mul, one_mul]
  rw [hk, mul_assoc, ← pow_add, pow_succ]
  omega

/-- The threshold lies half a spacing of the topmost binade, 2^2045 units, below 2^53 spacings. (The exponent is a
variable, as in the lemmas after it, so that nothing evaluates the power.) -/
theorem two_mul_overflow64_add {d : Nat} (hd : d = 2045) : 2 * overflow64 + 2 ^ d = 2 * (2 ^ 53 * 2 ^ d) := by
  have h := two_mul_threshold_add 970 1074
  rwa [← pow2_eq (970 + 54), ← pow2_eq 970, ← pow2_eq 1074, show 970 + 1074 + 1 = d from hd.symm] at h

theorem dropBits64_le_of_lt_overflow64 {n : Nat} (hn : n < overflow64) : dropBits64 n ≤ 2045 := by
  by_contra hd
  obtain ⟨d, hd'⟩ : ∃ d, d = 2045 := ⟨_, rfl⟩
  have hle : 2 ^ 53 * 2 ^ d ≤ n :=
    calc 2 ^ 53 * 2 ^ d = 2 ^ (53 + d) := (pow_add ..).symm
      _ ≤ 2 ^ (52 + dropBits64 n) := Nat.pow_le_pow_right two_pos (by omega)
      _ ≤ n := two_pow_dropBits64_le (by omega)
  have htop := two_mul_overflow64_add hd'
  have : 0 < 2 ^ d := by positivity
  generalize 2 ^ 53 * 2 ^ d = p at *
  generalize 2 ^ d = g at *
  omega

/-- The significand that rounding at the dropped bits leaves: all its 53 bits where anything is dropped, at most 2^53
(a carry), and no carry in the topmost binade. -/
theorem significand_bounds {n q : Nat} (hn : n < overflow64)
    (hhalf : 2 * ((n : Int) - (q * 2 ^ dropBits64 n : Nat)).natAbs ≤ 2 ^ dropBits64 n) :
    (dropBits64 n = 0 ∨ 2 ^ 52 ≤ q) ∧ q ≤ 2 ^ 53 ∧ (dropBits64 n = 2045 → q < 2 ^ 53) := by
  have hlt : n < 2 ^ 53 * 2 ^ dropBits64 n := pow_add 2 53 _ ▸ lt_two_pow_dropBits64 n
  have hpos : 0 < 2 ^ dropBits64 n := by positivity
  refine ⟨?_, ?_, fun hd => ?_⟩
  · refine (Nat.eq_zero_or_pos (dropBits64 n)).imp_right fun hd => ?_
    have hle : 2 ^ 52 * 2 ^ dropBits64 n ≤ n := pow_add 2 52 _ ▸ two_pow_dropBits64_le hd
    by_contra hq
    have : (q + 1) * 2 ^ dropBits64 n ≤ 2 ^ 52 * 2 ^ dropBits64 n := Nat.mul_le_mul_right _ (by omega)
    rw [add_mul, one_mul] at this
    omega
  · by_contra hq
    have : (2 ^ 53 + 1) * 2 ^ dropBits64 n ≤ q * 2 ^ dropBits64 n := Nat.mul_le_mul_right _ (by omega)
    rw [add_mul, one_mul] at this
    omega
  · by_contra hq
    have : 2 ^ 53 * 2 ^ dropBits64 n ≤ q * 2 ^ dropBits64 n := Nat.mul_le_mul_right _ (by omega)
    have htop := two_mul_overflow64_add hd
    generalize 2 ^ 53 * 2 ^ dropBits64 n = p at *
    generalize 2 ^ dropBits64 n = g at *
    omega

/-- A number v of a pattern's magnitude, of either sign, is no nearer to n than the rounded magnitude R, and as near only
where R is half a spacing away from n. -/
theorem nearest_of_natAbs_eq_mag64 {n R : Nat} (hR : 2 ^ dropBits64 n ∣ R)
    (hhalf : 2 * ((n : Int) - R).natAbs ≤ 2 ^ dropBits64 n) {y : Word64} {v : Int} (hv : v.natAbs = mag64 y)
    (hne : v ≠ R) :
    ((n : Int) - R).natAbs ≤ ((n : Int) - v).natAbs ∧
      (((n : Int) - R).natAbs = ((n : Int) - v).natAbs → 2 * ((n : Int) - R).natAbs = 2 ^ dropBits64 n) := by
  have of_dvd (w : Int) (hw : 2 ^ dropBits64 n ∣ w.natAbs) (hwne : w ≠ R) :=
    nearest_of_dvd (Int.natCast_dvd_natCast.2 hR) (Int.natCast_dvd.2 hw) hwne hhalf
  rcases two_pow_dvd_mag64_or_lt y (dropBits64 n) with hdvd | ⟨hd, hlt⟩
  · exact of_dvd v (hv ▸ hdvd) hne
  · -- the multiple 2^(52 + d) of the spacing lies between v and n
    have hle := two_pow_dropBits64_le hd
    have hbetween := of_dvd (2 ^ (52 + dropBits64 n) : Nat) (Dvd.intro_left (2 ^ 52) (pow_add 2 52 _).symm)
    generalize 2 ^ (52 + dropBits64 n) = b at *
    omega

/-- What `fl64` makes of a magnitude n below the threshold. -/
structure IsRounded64 (n R : Nat) : Prop where
  /-- finite patterns of both signs have the magnitude R -/
  representable : ∀ sign, ∃ x, finite64 x = true ∧ sign64 x = sign ∧ mag64 x = R
  /-- no number of a pattern's magnitude is nearer -/
  nearest : ∀ (y : Word64) (v : Int), v.natAbs = mag64 y → ((n : Int) - R).natAbs ≤ ((n : Int) - v).natAbs
  /-- where another one is as near, the fraction field of R is even -/
  ties_even : ∀ (x y : Word64) (v : Int), mag64 x = R → v.natAbs = mag64 y → v ≠ R →
    ((n : Int) - R).natAbs = ((n : Int) - v).natAbs → frac64 x % 2 = 0

theorem isRounded64_roundEvenAt {n : Nat} (hn : n < overflow64) : IsRounded64 n (roundEvenAt (dropBits64 n) n) := by
  obtain ⟨q, hq, hhalf, heven⟩ := roundEvenAt_spec (dropBits64 n) n
  rw [hq] at hhalf heven ⊢
  obtain ⟨hlo, hhi, htop⟩ := significand_bounds hn hhalf
  have hdvd : 2 ^ dropBits64 n ∣ q * 2 ^ dropBits64 n := Dvd.intro_left q rfl
  refine ⟨fun sign => exists_finite_mag64 sign hlo hhi (dropBits64_le_of_lt_overflow64 hn) htop, ?_, ?_⟩
  · intro y v hv
    by_cases hne : v = (q * 2 ^ dropBits64 n : Nat)
    · rw [hne]
    · exact (nearest_of_natAbs_eq_mag64 hdvd hhalf hv hne).1
  · intro x y v hx hv hne htie
    have hexact := (nearest_of_natAbs_eq_mag64 hdvd hhalf hv hne).2 htie
    have hd : dropBits64 n ≠ 0 := by
      intro h0
      rw [h0, pow_zero] at hexact
      omega
    exact frac64_even_of_mag64_eq hx (Nat.pos_of_ne_zero hd) (heven hexact) (hlo.resolve_left hd) hhi

/-! ### The sign of `fl64` -/

theorem val64_natAbs (x : Word64) : (val64 x).natAbs = mag64 x := by
  unfold val64
  split <;> omega

/-- w, mirrored at 0 where r is negative: `fl64` rounds the magnitude of r and mirrors the result. -/
def mirrorBy (r w : Int) : Int := if r < 0 then -w else w

theorem mirrorBy_mirrorBy (r w : Int) : mirrorBy r (mirrorBy r w) = w := by
  unfold mirrorBy
  split <;> simp

theorem natAbs_mirrorBy (r w : Int) : (mirrorBy r w).natAbs = w.natAbs := by
  unfold mirrorBy
  split <;> simp

/-- The distance from r is the distance from |r|, mirrored. -/
theorem natAbs_sub_eq_mirrorBy (r w : Int) : (r - w).natAbs = ((r.natAbs : Int) - mirrorBy r w).natAbs := by
  unfold mirrorBy
  split <;> omega

theorem val64_eq_mirrorBy {x : Word64} {r : Int} (hsign : sign64 x = decide (r < 0)) :
    val64 x = mirrorBy r (mag64 x) := by
  simp [val64, mirrorBy, hsign]

theorem fl64_eq_none_iff (r : Int) : fl64 r = none ↔ overflow64 ≤ r.natAbs := by
  simp [fl64, flMag64]

theorem fl64_of_lt_overflow64 {r : Int} (h : r.natAbs < overflow64) :
    fl64 r = some (mirrorBy r (roundEvenAt (dropBits64 r.natAbs) r.natAbs)) := by
  simp [fl64, flMag64, mirrorBy, not_le.2 h]

theorem fl64_eq_some {r m : Int} (h : fl64 r = some m) : ∃ R, IsRounded64 r.natAbs R ∧ m = mirrorBy r R := by
  have hlt : r.natAbs < overflow64 := by
    rw [← not_le, ← fl64_eq_none_iff, h]
    simp
  rw [fl64_of_lt_overflow64 hlt, Option.some.injEq] at h
  exact ⟨_, isRounded64_roundEvenAt hlt, h.symm⟩

/-- Settles O34: the magnitude is rounded among the multiples of its spacing, all of which are binary64 values, and the
sign mirrors the whole picture. -/
theorem fl64IsNearestEven : Obligations.Fl64IsNearestEven := by
  intro r
  constructor
  · rw [fl64_eq_none_iff, overflow64, unit64, pow2_eq, pow2_eq, pow2_eq]
  · intro m hm
    obtain ⟨R, hR, rfl⟩ := fl64_eq_some hm
    refine ⟨?_, fun y _ => ?_, fun x y _ hx _ hne htie => ?_⟩
    · obtain ⟨x, hfin, hsign, hmag⟩ := hR.representable (decide (r < 0))
      exact ⟨x, hfin, by rw [val64_eq_mirrorBy hsign, hmag]⟩
    · rw [natAbs_sub_eq_mirrorBy, natAbs_sub_eq_mirrorBy r (val64 y), mirrorBy_mirrorBy]
      exact hR.nearest y _ (by rw [natAbs_mirrorBy, val64_natAbs])
    · rw [natAbs_sub_eq_mirrorBy, natAbs_sub_eq_mirrorBy r (val64 y), mirrorBy_mirrorBy] at htie
      refine hR.ties_even x y _ ?_ (by rw [natAbs_mirrorBy, val64_natAbs]) ?_ htie
      · rw [← val64_natAbs, hx, natAbs_mirrorBy, Int.natAbs_natCast]
      · exact fun h => hne (by rw [← h, mirrorBy_mirrorBy])

end Sys2Proof
end

section
/-! PROOFS. The statements of 10_state.md: the state after reset (R31), the invariant (R30), the append-only streams
(R32), the two sides of the block (R34) and one step for each received byte (R21). -/

namespace Sys2Proof.Machine

/-! ### What an instruction does, by its port -/

/-- The state after an operation on the host port: `crc_reg` is c, the frames fs are emitted, the result r is
returned. -/
def hostUpdate (c : Word16) (fs : List (List Byte)) (r : Result) (s : State) : State :=
  { s with crcReg := c, txOut := s.txOut ++ fs, hostRes := s.hostRes ++ [r] }

theorem hostUpdate_sameLineSide (c : Word16) (fs : List (List Byte)) (r : Result) (s : State) :
    SameLineSide s (hostUpdate c fs r s) := by
  simp [SameLineSide, hostUpdate]

theorem hostResult_eq_hostUpdate (c : Word16) (code : ResultCode) (data : Option Word16) (s : State) :
    State.hostResult code data { s with crcReg := c } = hostUpdate c [] ⟨code, data⟩ s := by
  simp [hostUpdate, State.hostResult]

theorem illegalOp_eq_hostUpdate (s : State) : illegalOp s = hostUpdate s.crcReg [] ⟨.illegalOp, none⟩ s :=
  hostResult_eq_hostUpdate s.crcReg .illegalOp none s

theorem sendBody_eq_hostUpdate (body : List Byte) (s : State) :
    ∃ fs r, sendBody body s = hostUpdate s.crcReg fs r s := by
  rcases sendBody_cases body s with ⟨f, _, h⟩ | ⟨_, h⟩
  · exact ⟨[f], ⟨.ok, none⟩, h⟩
  · exact ⟨[], ⟨.txOversized, none⟩, by simp [h, hostUpdate]⟩

theorem cmdSet_eq_hostUpdate (p : CmdParams) (x : Word64) (s : State) :
    ∃ fs r, cmdSet p x s = hostUpdate s.crcReg fs r s := by
  rcases cmdSet_cases p x s with ⟨q, _, h⟩ | ⟨e, _, _, h⟩
  · exact h ▸ sendBody_eq_hostUpdate (commandBody p q) s
  · exact ⟨[], ⟨e, none⟩, by simp [h, hostUpdate]⟩

/-- Everything a host-port instruction can do: it writes `crc_reg`, the transmit stream and the host's results only, and
`crc_reg` only as CRC.CLEAR or CRC.UPDATE. -/
theorem exec_of_host {i : Instr} (hi : onLine i = false) (s : State) :
    ∃ c fs r, exec i s = .next (hostUpdate c fs r s) ∧
      (i ≠ .crcClear → (∀ b, i ≠ .crcUpdate b) → c = s.crcReg) := by
  cases i with
  | crcClear =>
    exact ⟨s.cfg.crc.init, [], _, congrArg Host.Outcome.next (hostResult_eq_hostUpdate _ _ _ s), fun h => absurd rfl h⟩
  | crcUpdate b =>
    exact ⟨crcStep s.cfg.crc s.crcReg b, [], _, congrArg Host.Outcome.next (hostResult_eq_hostUpdate _ _ _ s),
      fun _ h => absurd rfl (h b)⟩
  | crcRead =>
    exact ⟨s.crcReg, [], _, congrArg Host.Outcome.next (hostResult_eq_hostUpdate s.crcReg _ _ s), fun _ _ => rfl⟩
  | frameEncode | cmdFwVersion | cmdGetValues | bodyFwVersion | bodyGetValues | bodySetDuty | bodySetCurrent
  | bodySetBrake | bodySetRpm | bodySetPos | bodySetServo =>
    exact ⟨s.crcReg, (sendBody_eq_hostUpdate _ s).imp fun _ => .imp fun _ h =>
      ⟨congrArg Host.Outcome.next h, fun _ _ => rfl⟩⟩
  | cmdSetDuty | cmdSetCurrent | cmdSetBrake | cmdSetRpm | cmdSetPos | cmdSetServo =>
    exact ⟨s.crcReg, (cmdSet_eq_hostUpdate _ _ s).imp fun _ => .imp fun _ h =>
      ⟨congrArg Host.Outcome.next h, fun _ _ => rfl⟩⟩
  | rxByte | frameShort | frameLong => cases hi

/-- On the receive port act RX.BYTE and the frame rows. -/
theorem onLine_iff (i : Instr) : onLine i = true ↔ i.space = .frame ∨ ∃ b, i = .rxByte b := by
  cases i <;> simp [onLine, Instr.space]

theorem exec_of_frame {i : Instr} (hi : i.space = .frame) (s : State) :
    exec i s = .next (receiveFirst (encode s.cfg i) s) := by
  cases i with
  | frameShort | frameLong => rfl
  | _ => cases hi

/-- A frame is longer than its start marker: other bytes stay presented when the marker is taken. -/
theorem encode_of_frame {i : Instr} (hi : i.space = .frame) (cfg : Config) :
    ∃ b c tail, encode cfg i = b :: c :: tail := by
  cases i with
  | frameShort | frameLong => exact ⟨_, _, _, rfl⟩
  | _ => cases hi

/-- Everything a receive-port instruction can do: one received byte, and what stays presented. -/
theorem exec_of_onLine {i : Instr} (hi : onLine i = true) (s : State) :
    ∃ b left, left = (if i.space = .frame then .line ((encode s.cfg i).drop 1) :: s.input else s.input) ∧
      exec i s = .next (rxStep { s with input := left } b) := by
  rcases (onLine_iff i).1 hi with hf | ⟨b, rfl⟩
  · obtain ⟨b, c, tail, he⟩ := encode_of_frame hf s.cfg
    exact ⟨b, .line (c :: tail) :: s.input, by simp [hf, he], by rw [exec_of_frame hf, he]; rfl⟩
  · exact ⟨b, s.input, rfl, rfl⟩

/-- Settles O56: an instruction updates the host side, or receives one byte. -/
theorem portsShareNoState : Obligations.PortsShareNoState := by
  intro i s t ht
  cases hi : onLine i with
  | false =>
    obtain ⟨c, fs, r, he, hc⟩ := exec_of_host hi s
    obtain rfl : hostUpdate c fs r s = t := by simpa [he] using ht
    have hf : i.space ≠ .frame := fun hf => by simp [(onLine_iff i).2 (.inl hf)] at hi
    exact ⟨rfl, by rw [if_neg hf]; rfl, fun _ => hostUpdate_sameLineSide c fs r s, by simp, hc⟩
  | true =>
    obtain ⟨b, left, hleft, he⟩ := exec_of_onLine hi s
    obtain rfl := Host.Outcome.next.inj (he.symm.trans ht)
    simp [SameHostSide, hleft]

/-! ### What a step does -/

/-- Everything a step can do, besides taking from what is presented: nothing, a reset, an operation on the host port or
one received byte. -/
theorem step_cases {s t : State} (h : step s = .next t) : ∃ left,
    t = { s with input := left } ∨ t = applyReset { s with input := left } ∨
    (∃ c fs r, t = hostUpdate c fs r { s with input := left }) ∨ ∃ b, t = rxStep { s with input := left } b := by
  unfold step at h
  split at h
  · cases h
  split at h
  · cases h
  cases hf : fetch s with
  | idle =>
    simp only [hf, Host.Outcome.next.injEq] at h
    exact ⟨[], .inl h.symm⟩
  | reset rest =>
    simp only [hf, Host.Outcome.next.injEq] at h
    exact ⟨rest, .inr (.inl h.symm)⟩
  | illegal rest =>
    simp only [hf, Host.Outcome.next.injEq, illegalOp_eq_hostUpdate] at h
    exact ⟨rest, .inr (.inr (.inl ⟨_, _, _, h.symm⟩))⟩
  | truncated => simp [hf] at h
  | run i rest =>
    simp only [hf] at h
    cases hi : onLine i with
    | false =>
      obtain ⟨c, fs, r, he, _⟩ := exec_of_host hi { s with input := rest }
      exact ⟨rest, .inr (.inr (.inl ⟨c, fs, r, Host.Outcome.next.inj (h.symm.trans he)⟩))⟩
    | true =>
      obtain ⟨b, left, _, he⟩ := exec_of_onLine hi { s with input := rest }
      exact ⟨left, .inr (.inr (.inr ⟨b, Host.Outcome.next.inj (h.symm.trans he)⟩))⟩

theorem rxInv_withInput (s : State) (left : List Input) : State.rxInv { s with input := left } = s.rxInv := rfl

/-- Settles O5: only a reset and a received byte write what R30 speaks of. -/
theorem stepKeepsInvariant : Obligations.StepKeepsInvariant := by
  rintro s t ⟨hcfg, hrx⟩ h
  obtain ⟨left, rfl | rfl | ⟨c, fs, r, rfl⟩ | ⟨b, rfl⟩⟩ := step_cases h
  · exact ⟨⟨hcfg, hrx⟩, rfl⟩
  · exact ⟨⟨hcfg, rfl⟩, rfl⟩
  · exact ⟨⟨hcfg, (rxInv_of_sameLineSide (hostUpdate_sameLineSide c fs r _) rfl).trans hrx⟩, rfl⟩
  · exact ⟨⟨by simpa using hcfg, rxStep_rxInv _ b (by rwa [rxInv_withInput])⟩, by simp⟩

theorem rxStep_appends_rxEvt (s : State) (b : Byte) : s.rxEvt <+: (rxStep s b).rxEvt := by
  rcases rxStep_posts s b with h | ⟨e, h, _⟩ <;> simp [h]

/-- Settles O12: a host-port operation appends to `tx_out` and the host's results, a received byte to `rx_evt` and the
line's results; nothing else touches the four. -/
theorem streamsAreAppendOnly : Obligations.StreamsAreAppendOnly := by
  intro s t h
  obtain ⟨left, rfl | rfl | ⟨c, fs, r, rfl⟩ | ⟨b, rfl⟩⟩ := step_cases h
  · simp
  · simp
  · simp [hostUpdate]
  · simpa using rxStep_appends_rxEvt { s with input := left } b

/-! ### Reset -/

theorem step_of_reset_input {s : State} {rest : List Input} (hs : StateInv s) (hin : s.input = .reset :: rest) :
    step s = .next (applyReset { s with input := rest }) := by
  obtain ⟨hcfg, hrx⟩ := hs
  simp [step, hcfg, hrx, fetch, hin, fetchFrom]

/-- Settles O3: the step at a reset input is `applyReset`, and `CRC_INIT` of the source is 0x0000. -/
theorem resetSetsResetValues : Obligations.ResetSetsResetValues := by
  refine ⟨⟨rfl, rfl, rfl, rfl, rfl, rfl, rfl⟩, fun s rest hs hwire hin => ?_⟩
  have hinit : s.cfg.crc.init = 0x0000#16 := by rw [hwire.2]; rfl
  rw [step_of_reset_input hs hin, applyReset, hinit]

/-- Settles O4: the default parameters are admitted, and every receive state in `SEEKING` is. -/
theorem resetMeetsInvariant : Obligations.ResetMeetsInvariant :=
  ⟨by decide, rfl⟩

/-! ### One step for each received byte -/

/-- What stays presented is the bytes bs from the line, in non-empty chunks, and after them rest. -/
def PresentsLine (bs : List Byte) (rest left : List Input) : Prop :=
  ∃ chunks : List (List Byte), left = chunks.map .line ++ rest ∧ chunks.flatten = bs ∧ ∀ c ∈ chunks, c ≠ []

theorem presentsLine_nil (rest : List Input) : PresentsLine [] rest rest := ⟨[], by simp⟩

theorem PresentsLine.putBack {bs : List Byte} {rest left : List Input} (h : PresentsLine bs rest left)
    (as : List Byte) : PresentsLine (as ++ bs) rest (putBack .line as left) := by
  obtain ⟨chunks, rfl, rfl, hne⟩ := h
  rcases putBack_cases .line as (chunks.map .line ++ rest) with ⟨rfl, h⟩ | ⟨has, h⟩
  · exact ⟨chunks, h, rfl, hne⟩
  · exact ⟨as :: chunks, h, rfl, List.forall_mem_cons.2 ⟨has, hne⟩⟩

/-- What the frame decoder reads is a frame row, and its encoding is what was read (30_encoding.md R60, R62). -/
theorem decodeFrame_ok {cfg : Config} {bs tail : List Byte} {i : Instr} (h : decodeFrame cfg bs = .ok (i, tail)) :
    i.space = .frame ∧ encode cfg i ++ tail = bs := by
  cases bs with
  | nil => cases h
  | cons start rest =>
    simp only [decodeFrame] at h
    split at h
    case isTrue hstart =>
      split at h
      · obtain ⟨hi, lo, last, rfl, hbytes, hle⟩ := decodeTail_ok h
        exact ⟨rfl, by simp [encode, shortFrameBytes, hle, hstart, ← hbytes]⟩
      · cases h
    case isFalse =>
      split at h
      case isTrue hstart =>
        split at h
        · obtain ⟨hi, lo, last, rfl, hbytes, hle⟩ := decodeTail_ok h
          exact ⟨rfl, by simp [encode, longFrameBytes, hle, hstart, ← hbytes]⟩
        · cases h
      case isFalse => cases h

/-- The step that finds a line chunk receives its first byte, whichever row it runs; its other bytes stay presented. -/
theorem step_of_line_byte {s : State} {b : Byte} {bs : List Byte} {rest : List Input} (hs : StateInv s)
    (hin : s.input = .line (b :: bs) :: rest) :
    ∃ left, PresentsLine bs rest left ∧ step s = .next (rxStep { s with input := left } b) := by
  cases hd : decodeFrame s.cfg (b :: bs) with
  | ok p =>
    obtain ⟨i, tail⟩ := p
    obtain ⟨hspace, hbytes⟩ := decodeFrame_ok hd
    obtain ⟨b', c, others, he⟩ := encode_of_frame hspace s.cfg
    obtain ⟨rfl, rfl⟩ : b' = b ∧ (c :: others) ++ tail = bs := by simpa [he] using hbytes
    have hleft := (presentsLine_nil rest).putBack tail
    rw [List.append_nil] at hleft
    refine ⟨_, hleft.putBack (c :: others), ?_⟩
    rw [step_of_fetch_run hs (fetch_line hin hd), exec_of_frame hspace, he, receiveFirst_cons]
  | error e =>
    have hf : fetch s = .run (.rxByte b) (putBack .line bs rest) := by
      simp [fetch, hin, fetchFrom, fetchLine, hd]
    refine ⟨putBack .line bs rest, ?_, step_of_fetch_run hs hf⟩
    simpa using (presentsLine_nil rest).putBack bs

/-- Settles O60: the step is RX.BYTE of the chunk's first byte, and RX.BYTE leaves what is presented. -/
theorem stepTakesOneLineByte : Obligations.StepTakesOneLineByte := by
  intro s b bs rest hs hin
  obtain ⟨left, ⟨chunks, hleft, hflat, hne⟩, hstep⟩ := step_of_line_byte hs hin
  exact ⟨_, chunks, hstep, by simpa using hleft, hflat, hne, by rw [rxStep_input]; rfl⟩

end Sys2Proof.Machine
end

section
/-! PROOFS. The statements of 20_memory.md: what the step takes of what is presented (section 3), a line chunk as a
sequence of received bytes (R46), the atomic transmit (R47) and the two ports' independence (R52). -/

namespace Sys2Proof.Machine

/-! ### What is presented and is no instruction's encoding -/

/-- What a step does is a function of the next transaction: what is presented matters in no other way. -/
theorem step_withInput_of_fetch_eq {s : State} {rest : List Input} (hf : fetch { s with input := rest } = fetch s) :
    step { s with input := rest } = step s := by
  unfold step
  rw [hf, rxInv_withInput]

theorem fetch_line_of_error {s : State} {b : Byte} {bs : List Byte} {rest : List Input} {e : DecodeError}
    (hin : s.input = .line (b :: bs) :: rest) (hd : decodeFrame s.cfg (b :: bs) = .error e) :
    fetch s = .run (.rxByte b) (putBack .line bs rest) := by
  simp [fetch, hin, fetchFrom, fetchLine, hd]

theorem fetch_body_of_error {s : State} {b : Byte} {bs : List Byte} {rest : List Input} {e : DecodeError}
    (hin : s.input = .body (b :: bs) :: rest) (hd : decodeBody s.cfg (b :: bs) = .error e) :
    fetch s = .run (.frameEncode b bs) rest := by
  simp [fetch, hin, fetchFrom, fetchBody, hd]

theorem fetch_empty_chunk {s : State} {rest : List Input}
    (hin : s.input = .ops [] :: rest ∨ s.input = .line [] :: rest ∨ s.input = .body [] :: rest) :
    fetch { s with input := rest } = fetch s := by
  rcases hin with hin | hin | hin <;> simp [fetch, hin, fetchFrom]

theorem step_of_input_nil {s : State} (hs : StateInv s) (hin : s.input = []) : step s = .next s := by
  obtain ⟨hcfg, hrx⟩ := hs
  have hf : fetch s = .idle := by simp [fetch, hin, fetchFrom]
  have hstep : step s = .next { s with input := [] } := by simp [step, hcfg, hrx, hf]
  rw [hstep, ← hin]

/-- Settles O8: what does not decode is fetched as RX.BYTE or as FRAME.ENCODE, and an empty chunk is skipped. -/
theorem stepTakesEverythingElsePresented : Obligations.StepTakesEverythingElsePresented := by
  intro s b bs e rest hs
  exact ⟨fun hin hd => step_of_fetch_run hs (fetch_line_of_error hin hd),
    fun hin hd => step_of_fetch_run hs (fetch_body_of_error hin hd),
    fun hin => (step_withInput_of_fetch_eq (fetch_empty_chunk hin)).symm, step_of_input_nil hs⟩

/-! ### A chunk is a sequence of received bytes -/

/-- Bytes presented in front of bytes that are presented already. -/
theorem PresentsLine.append {as bs : List Byte} {rest mid left : List Input} (ha : PresentsLine as mid left)
    (hb : PresentsLine bs rest mid) : PresentsLine (as ++ bs) rest left := by
  obtain ⟨chunks, rfl, rfl, hne⟩ := ha
  obtain ⟨chunks', rfl, rfl, hne'⟩ := hb
  exact ⟨chunks ++ chunks', by simp, by simp, List.forall_mem_append.2 ⟨hne, hne'⟩⟩

theorem PresentsLine.eq_of_nil {rest left : List Input} (h : PresentsLine [] rest left) : left = rest := by
  obtain ⟨chunks, rfl, hflat, hne⟩ := h
  cases chunks with
  | nil => rfl
  | cons c chunks => exact absurd (List.append_eq_nil_iff.1 hflat).1 (hne c List.mem_cons_self)

/-- The first of the presented bytes is the first byte of the chunk in front. -/
theorem PresentsLine.head_chunk {b : Byte} {bs : List Byte} {rest left : List Input}
    (h : PresentsLine (b :: bs) rest left) :
    ∃ as cs mid, bs = as ++ cs ∧ left = .line (b :: as) :: mid ∧ PresentsLine cs rest mid := by
  obtain ⟨chunks, rfl, hflat, hne⟩ := h
  match chunks, hflat, hne with
  | [] :: _, _, hne => exact absurd rfl (hne [] List.mem_cons_self)
  | (_ :: as) :: chunks, hflat, hne =>
    obtain ⟨rfl, rfl⟩ := List.cons.inj hflat
    exact ⟨as, chunks.flatten, _, rfl, rfl, chunks, rfl, rfl, (List.forall_mem_cons.1 hne).2⟩

/-- As many steps as bytes are presented receive them in order, however they are cut into chunks. The cut changes along
the way: a step that runs a frame row cuts the chunk where that frame ends. -/
theorem run_of_presentsLine {bs : List Byte} {rest : List Input} {s : State} (hs : StateInv s)
    (hin : PresentsLine bs rest s.input) :
    Host.Core.run Sys2Proof.core bs.length s = .next (rxFeed bs { s with input := rest }) := by
  induction bs generalizing s with
  | nil =>
    rw [← hin.eq_of_nil]
    rfl
  | cons b bs ih =>
    obtain ⟨as, cs, mid, rfl, hfront, hmid⟩ := hin.head_chunk
    obtain ⟨left, hleft, hstep⟩ := step_of_line_byte hs hfront
    have hinv : StateInv (rxStep { s with input := left } b) := (stepKeepsInvariant s _ hs hstep).1
    have hrest := ih hinv (by simpa using hleft.append hmid)
    rw [rxStep_withInput] at hrest
    calc Host.Core.run Sys2Proof.core ((as ++ cs).length + 1) s
        = Host.Core.run Sys2Proof.core (as ++ cs).length (rxStep { s with input := left } b) := by
          simp only [Host.Core.run, show Sys2Proof.core.step s = _ from hstep]
      _ = _ := hrest

/-- Settles O54: a chunk presents its own bytes. -/
theorem lineChunkIsByteSequence : Obligations.LineChunkIsByteSequence := by
  intro s bs rest hs hne hin
  refine ⟨_, run_of_presentsLine hs ⟨[bs], hin, by simp, by simpa using hne⟩, runInstrs_rxByte bs _⟩

/-! ### The transmit operations -/

/-- Under the parameters cfg an operation sends one non-empty body, or raises one error, whatever else the state is. -/
def Transmits (cfg : Config) (op : State → Host.Outcome State Fault Refusal) : Prop :=
  (∃ body, body ≠ [] ∧ ∀ s : State, s.cfg = cfg → op s = .next (sendBody body s)) ∨
  (∃ code, code ≠ .ok ∧ ∀ s : State, s.cfg = cfg → op s = .next (raise code s))

theorem transmits_sendBody {cfg : Config} (bodyOf : Config → List Byte) (hbody : bodyOf cfg ≠ []) :
    Transmits cfg fun s => .next (sendBody (bodyOf s.cfg) s) :=
  .inl ⟨bodyOf cfg, hbody, by rintro s rfl; rfl⟩

theorem transmits_commandBody (prm : Config → CmdParams) (q : Int) (cfg : Config) :
    Transmits cfg fun s => .next (sendBody (commandBody (prm s.cfg) q) s) :=
  transmits_sendBody (fun c => commandBody (prm c) q) (List.cons_ne_nil _ _)

theorem transmits_cmdSet (prm : Config → CmdParams) (x : Word64) (cfg : Config) :
    Transmits cfg fun s => .next (cmdSet (prm s.cfg) x s) := by
  cases h : fxEncode cfg.product cfg.tie (prm cfg) x with
  | ok q => exact .inl ⟨commandBody (prm cfg) q, List.cons_ne_nil _ _, by rintro s rfl; simp [cmdSet, h]⟩
  | error code =>
    have hcode : code ≠ .ok := by rcases fxEncode_error h with rfl | rfl <;> decide
    exact .inr ⟨code, hcode, by rintro s rfl; simp [cmdSet, h]⟩

/-- Everything the host port's instructions other than CRC.* do (20_memory.md R47; the BODY rows: log 9). -/
theorem transmits_exec {i : Instr} (hi : onLine i = false) (hclear : i ≠ .crcClear) (hupdate : ∀ b, i ≠ .crcUpdate b)
    (hread : i ≠ .crcRead) (cfg : Config) : Transmits cfg (exec i) := by
  cases i with
  | crcClear => exact absurd rfl hclear
  | crcUpdate b => exact absurd rfl (hupdate b)
  | crcRead => exact absurd rfl hread
  | rxByte | frameShort | frameLong => cases hi
  | frameEncode cid payload => exact transmits_sendBody (fun _ => cid :: payload) (List.cons_ne_nil _ _)
  | cmdFwVersion | bodyFwVersion => exact transmits_sendBody (fun c => [c.fwVersionId]) (List.cons_ne_nil _ _)
  | cmdGetValues | bodyGetValues => exact transmits_sendBody (fun c => [c.getValuesId]) (List.cons_ne_nil _ _)
  | cmdSetDuty x => exact transmits_cmdSet (·.duty) x cfg
  | cmdSetCurrent x => exact transmits_cmdSet (·.current) x cfg
  | cmdSetBrake x => exact transmits_cmdSet (·.brake) x cfg
  | cmdSetRpm x => exact transmits_cmdSet (·.rpm) x cfg
  | cmdSetPos x => exact transmits_cmdSet (·.pos) x cfg
  | cmdSetServo x => exact transmits_cmdSet (·.servo) x cfg
  | bodySetDuty q => exact transmits_commandBody (·.duty) q cfg
  | bodySetCurrent q => exact transmits_commandBody (·.current) q cfg
  | bodySetBrake q => exact transmits_commandBody (·.brake) q cfg
  | bodySetRpm q => exact transmits_commandBody (·.rpm) q cfg
  | bodySetPos q => exact transmits_commandBody (·.pos) q cfg
  | bodySetServo q => exact transmits_commandBody (·.servo) q cfg

theorem crc_txOut {i : Instr} {s t : State} (hi : i = .crcClear ∨ (∃ b, i = .crcUpdate b) ∨ i = .crcRead)
    (h : exec i s = .next t) : t.txOut = s.txOut := by
  rcases hi with rfl | ⟨b, rfl⟩ | rfl <;> cases h <;> rfl

/-- Settles O57: an operation that transmits ends in `sendBody` or `raise`, and each of them is a single append. -/
theorem transmitIsAtomic : Obligations.TransmitIsAtomic := by
  intro i s t h
  refine ⟨fun hi => ?_, fun hi => crc_txOut hi h, fun ⟨hi, hclear, hupdate, hread⟩ => ?_⟩
  · obtain ⟨_, _, _, hline, _⟩ := portsShareNoState i s t h
    obtain ⟨_, htx, _⟩ := hline hi
    exact htx
  · rcases transmits_exec hi hclear hupdate hread s.cfg with ⟨body, hbody, he⟩ | ⟨code, hcode, he⟩
    · obtain rfl := Host.Outcome.next.inj ((he s rfl).symm.trans h)
      rcases sendBody_cases body s with ⟨f, hf, hsend⟩ | ⟨_, hsend⟩
      · exact .inl ⟨body, f, hbody, hf, hsend⟩
      · exact .inr ⟨.txOversized, by decide, hsend⟩
    · exact .inr ⟨code, hcode, Host.Outcome.next.inj (h.symm.trans (he s rfl))⟩

/-! ### The two ports commute -/

/-- Which frames a body's sending emits, and what it returns, is settled by the parameters. -/
theorem sendBody_eq_hostUpdate_of_cfg (cfg : Config) (body : List Byte) :
    ∃ fs r, ∀ s : State, s.cfg = cfg → sendBody body s = hostUpdate s.crcReg fs r s := by
  cases h : makeFrame cfg body with
  | ok f => exact ⟨[f], ⟨.ok, none⟩, by rintro s rfl; simp [sendBody, h, hostUpdate, State.emit, State.hostResult]⟩
  | error code => exact ⟨[], ⟨code, none⟩, by rintro s rfl; simp [sendBody, h, hostUpdate, raise_eq]⟩

/-- What a host-port instruction writes is settled by the parameters and `crc_reg` (10_state.md R34). -/
theorem exec_of_host_of_crcReg {i : Instr} (hi : onLine i = false) (cfg : Config) (c₀ : Word16) :
    ∃ c fs r, ∀ s : State, s.cfg = cfg → s.crcReg = c₀ → exec i s = .next (hostUpdate c fs r s) := by
  by_cases hcrc : i = .crcClear ∨ (∃ b, i = .crcUpdate b) ∨ i = .crcRead
  · rcases hcrc with rfl | ⟨b, rfl⟩ | rfl
    · exact ⟨cfg.crc.init, [], ⟨.ok, none⟩, by
        rintro s rfl rfl; exact congrArg Host.Outcome.next (hostResult_eq_hostUpdate _ _ _ s)⟩
    · exact ⟨crcStep cfg.crc c₀ b, [], ⟨.ok, none⟩, by
        rintro s rfl rfl; exact congrArg Host.Outcome.next (hostResult_eq_hostUpdate _ _ _ s)⟩
    · exact ⟨c₀, [], ⟨.ok, some (crcOut cfg.crc c₀)⟩, by
        rintro s rfl rfl; exact congrArg Host.Outcome.next (hostResult_eq_hostUpdate _ _ _ s)⟩
  · simp only [not_or, not_exists] at hcrc
    obtain ⟨hclear, hupdate, hread⟩ := hcrc
    rcases transmits_exec hi hclear hupdate hread cfg with ⟨body, _, he⟩ | ⟨code, _, he⟩
    · obtain ⟨fs, r, hsend⟩ := sendBody_eq_hostUpdate_of_cfg cfg body
      exact ⟨c₀, fs, r, by rintro s hs rfl; rw [he s hs, hsend s hs]⟩
    · exact ⟨c₀, [], ⟨code, none⟩, by
        rintro s hs rfl; rw [he s hs]; exact congrArg Host.Outcome.next (hostResult_eq_hostUpdate _ _ _ s)⟩

/-- A received byte neither reads nor writes what a host-port operation writes (10_state.md R34). -/
theorem rxStep_hostUpdate (c : Word16) (fs : List (List Byte)) (r : Result) (s : State) (b : Byte) :
    rxStep (hostUpdate c fs r s) b = hostUpdate c fs r (rxStep s b) := by
  obtain ⟨cfg, crcReg, rxState, rxForm, rxLen, rxCnt, rxBody, rxCrc, txOut, rxEvt, hostRes, lineRes, input⟩ := s
  simp only [hostUpdate, rxStep, rxTransition, State.lineResult]
  cases rxState with
  | seeking => simp only [rxSeeking]; split_ifs <;> rfl
  | readLen => cases rxForm <;> simp only [rxReadLen, rxLengthDone, State.post] <;> split_ifs <;> rfl
  | readBody => simp only [rxReadBody]; split_ifs <;> rfl
  | readCrc => simp only [rxReadCrc]; split_ifs <;> rfl
  | readEnd => rfl

theorem exec_onLine_hostUpdate {j : Instr} (hj : onLine j = true) (c : Word16) (fs : List (List Byte)) (r : Result)
    {s t : State} (h : exec j s = .next t) : exec j (hostUpdate c fs r s) = .next (hostUpdate c fs r t) := by
  rcases (onLine_iff j).1 hj with hf | ⟨b, rfl⟩
  · obtain ⟨b, c', tail, he⟩ := encode_of_frame hf s.cfg
    rw [exec_of_frame hf, he, receiveFirst_cons] at h
    obtain rfl := Host.Outcome.next.inj h
    rw [exec_of_frame hf, show (hostUpdate c fs r s).cfg = s.cfg from rfl, he, receiveFirst_cons, ← rxStep_hostUpdate]
    rfl
  · obtain rfl := Host.Outcome.next.inj h
    exact congrArg Host.Outcome.next (rxStep_hostUpdate c fs r s b)

/-- An instruction of each port, in either order. -/
theorem exec_comm {i j : Instr} (hi : onLine i = false) (hj : onLine j = true) {s u v : State}
    (hu : exec i s = .next u) (hv : exec j s = .next v) : ∃ t, exec j u = .next t ∧ exec i v = .next t := by
  obtain ⟨c, fs, r, hhost⟩ := exec_of_host_of_crcReg hi s.cfg s.crcReg
  obtain rfl := Host.Outcome.next.inj ((hhost s rfl rfl).symm.trans hu)
  obtain ⟨hcfg, _, _, hline, _⟩ := portsShareNoState j s v hv
  obtain ⟨hcrc, _, _⟩ := hline hj
  exact ⟨hostUpdate c fs r v, exec_onLine_hostUpdate hj c fs r hv, hhost v hcfg hcrc⟩

theorem runInstrs_cons {i : Instr} {s t : State} (h : exec i s = .next t) (is : List Instr) :
    runInstrs (i :: is) s = runInstrs is t := by
  simp only [runInstrs, h]

theorem runInstrs_answers_next (is : List Instr) (s : State) : ∃ t, runInstrs is s = .next t := by
  induction is generalizing s with
  | nil => exact ⟨s, rfl⟩
  | cons i is ih =>
    obtain ⟨u, hu⟩ := exec_answers_next i s
    simpa only [runInstrs_cons hu] using ih u

theorem runInstrs_swap {i j : Instr} (hi : onLine i = false) (hj : onLine j = true) (is : List Instr) (s : State) :
    runInstrs (j :: i :: is) s = runInstrs (i :: j :: is) s := by
  obtain ⟨u, hu⟩ := exec_answers_next i s
  obtain ⟨v, hv⟩ := exec_answers_next j s
  obtain ⟨t, hjt, hit⟩ := exec_comm hi hj hu hv
  rw [runInstrs_cons hv, runInstrs_cons hit, runInstrs_cons hu, runInstrs_cons hjt]

/-- A receive-port instruction can wait for all the host-port instructions after it. -/
theorem runInstrs_onLine_after_host {j : Instr} (hj : onLine j = true) {hosts : List Instr}
    (hhosts : ∀ i ∈ hosts, onLine i = false) (is : List Instr) (s : State) :
    runInstrs (j :: (hosts ++ is)) s = runInstrs (hosts ++ j :: is) s := by
  induction hosts generalizing s with
  | nil => rfl
  | cons i hosts ih =>
    obtain ⟨hi, hhosts⟩ := List.forall_mem_cons.1 hhosts
    obtain ⟨u, hu⟩ := exec_answers_next i s
    calc runInstrs (j :: i :: (hosts ++ is)) s
        = runInstrs (i :: j :: (hosts ++ is)) s := runInstrs_swap hi hj _ s
      _ = runInstrs (j :: (hosts ++ is)) u := runInstrs_cons hu _
      _ = runInstrs (hosts ++ j :: is) u := ih hhosts u
      _ = runInstrs (i :: (hosts ++ j :: is)) s := (runInstrs_cons hu _).symm

/-- The instructions in the order given, and one port after the other. -/
theorem runInstrs_eq_host_then_line (is : List Instr) (s : State) :
    runInstrs is s = runInstrs (is.filter (fun i => !onLine i) ++ is.filter onLine) s := by
  induction is generalizing s with
  | nil => rfl
  | cons i is ih =>
    obtain ⟨u, hu⟩ := exec_answers_next i s
    rw [runInstrs_cons hu, ih u, ← runInstrs_cons hu]
    cases hi : onLine i with
    | false => simp [hi]
    | true =>
      rw [runInstrs_onLine_after_host hi (by simp)]
      simp [hi]

/-- Settles O55: every instruction goes on, and the two ports' instructions commute. -/
theorem interleavingIsIrrelevant : Obligations.InterleavingIsIrrelevant := by
  intro is s
  obtain ⟨t, ht⟩ := runInstrs_answers_next is s
  exact ⟨t, ht, (runInstrs_eq_host_then_line is s).symm.trans ht⟩

end Sys2Proof.Machine
end

section
/-! PROOFS. The statements of 30_encoding.md: decode and encode agree (R60, R63, R70 to R72), a cut operation is refused
(R73), the sizes, what the wire rows and the commands do (R63, R78; logs 8, 9). -/

namespace Sys2Proof

/-! ### The operands of the formats B, F and P (30_encoding.md R70) -/

theorem decodeB_ok {mk : Byte → Instr} {bs rest : List Byte} {i : Instr} (h : decodeB mk bs = .ok (i, rest)) :
    ∃ b, i = mk b ∧ bs = b :: rest := by
  cases bs with
  | nil => cases h
  | cons b bs =>
    obtain ⟨rfl, rfl⟩ : mk b = i ∧ bs = rest := by simpa [decodeB] using h
    exact ⟨b, rfl, rfl⟩

theorem decodeB_error {mk : Byte → Instr} {bs : List Byte} {e : DecodeError} (h : decodeB mk bs = .error e) :
    e = .truncated := by
  cases bs <;> cases h
  rfl

@[simp] theorem decodeF_be64 (mk : Word64 → Instr) (x : Word64) (rest : List Byte) :
    decodeF mk (be64 x ++ rest) = .ok (mk x, rest) := by
  simp [decodeF, be64]

theorem decodeF_ok {mk : Word64 → Instr} {bs rest : List Byte} {i : Instr} (h : decodeF mk bs = .ok (i, rest)) :
    ∃ x, i = mk x ∧ bs = be64 x ++ rest := by
  unfold decodeF at h
  split at h
  · obtain ⟨rfl, rfl⟩ := Prod.mk.inj (Except.ok.inj h)
    exact ⟨_, rfl, by simp⟩
  · cases h

theorem decodeF_error {mk : Word64 → Instr} {bs : List Byte} {e : DecodeError} (h : decodeF mk bs = .error e) :
    e = .truncated := by
  unfold decodeF at h
  split at h <;> cases h
  rfl

/-- The operands of FRAME.ENCODE: cid, the payload's length and the payload. -/
def operandsP (cid : Byte) (payload : List Byte) : List Byte :=
  cid :: (be16 (BitVec.ofNat 16 payload.length) ++ payload)

theorem encode_frameEncode (cfg : Config) (cid : Byte) (payload : List Byte) :
    encode cfg (.frameEncode cid payload) = 0x10#8 :: operandsP cid payload := rfl

theorem decodeP_operandsP (cid : Byte) {payload : List Byte} (hlen : payload.length ≤ 65535) (rest : List Byte) :
    decodeP (operandsP cid payload ++ rest) = .ok (.frameEncode cid payload, rest) := by
  have hmod : payload.length % 65536 = payload.length := Nat.mod_eq_of_lt (by omega)
  simp [decodeP, operandsP, be16, hmod]

theorem decodeP_ok {bs rest : List Byte} {i : Instr} (h : decodeP bs = .ok (i, rest)) :
    ∃ cid payload, i = .frameEncode cid payload ∧ payload.length ≤ 65535 ∧ bs = operandsP cid payload ++ rest := by
  unfold decodeP at h
  split at h
  case h_1 cid hi lo tail =>
    dsimp only at h
    split at h
    case isTrue hle =>
      obtain ⟨rfl, rfl⟩ := Prod.mk.inj (Except.ok.inj h)
      have hbound := (word16 hi lo).isLt
      exact ⟨cid, _, rfl, by rw [List.length_take_of_le hle]; omega, by simp [operandsP, hle]⟩
    case isFalse => cases h
  case h_2 => cases h

theorem decodeP_error {bs : List Byte} {e : DecodeError} (h : decodeP bs = .error e) : e = .truncated := by
  unfold decodeP at h
  split at h
  · dsimp only at h
    split at h <;> cases h
    rfl
  · cases h
    rfl

/-! ### The host operations by format (30_encoding.md R71) -/

/-- The operations of format N. -/
def opsN : List (Byte × Instr) :=
  [(0x00#8, .crcClear), (0x02#8, .crcRead), (0x20#8, .cmdFwVersion), (0x21#8, .cmdGetValues)]

/-- The operations of format B. -/
def opsB : List (Byte × (Byte → Instr)) := [(0x01#8, .crcUpdate), (0x30#8, .rxByte)]

/-- The operations of format F. -/
def opsF : List (Byte × (Word64 → Instr)) :=
  [(0x22#8, .cmdSetDuty), (0x23#8, .cmdSetCurrent), (0x24#8, .cmdSetBrake), (0x25#8, .cmdSetRpm), (0x26#8, .cmdSetPos),
    (0x27#8, .cmdSetServo)]

theorem decodeOp_opsN : ∀ r ∈ opsN, ∀ bs, decodeOp (r.1 :: bs) = .ok (r.2, bs) := by
  simp [opsN, decodeOp]

theorem decodeOp_opsB : ∀ r ∈ opsB, ∀ bs, decodeOp (r.1 :: bs) = decodeB r.2 bs := by
  simp [opsB, decodeOp]

theorem decodeOp_opsF : ∀ r ∈ opsF, ∀ bs, decodeOp (r.1 :: bs) = decodeF r.2 bs := by
  simp [opsF, decodeOp]

theorem decodeOp_opP (bs : List Byte) : decodeOp (0x10#8 :: bs) = decodeP bs := rfl

theorem encode_opsN (cfg : Config) :
    ∀ r ∈ opsN, r.2.space = .op ∧ WellFormed cfg r.2 = true ∧ encode cfg r.2 = [r.1] := by
  simp [opsN, Instr.space, WellFormed, encode]

theorem encode_opsB (cfg : Config) (b : Byte) :
    ∀ r ∈ opsB, (r.2 b).space = .op ∧ WellFormed cfg (r.2 b) = true ∧ encode cfg (r.2 b) = [r.1, b] := by
  simp [opsB, Instr.space, WellFormed, encode]

theorem encode_opsF (cfg : Config) (x : Word64) :
    ∀ r ∈ opsF, (r.2 x).space = .op ∧ WellFormed cfg (r.2 x) = true ∧ encode cfg (r.2 x) = r.1 :: be64 x := by
  simp [opsF, Instr.space, WellFormed, encode]

/-- The instructions of the op space, by format. -/
theorem space_op_cases {i : Instr} (h : i.space = .op) :
    (∃ r ∈ opsN, i = r.2) ∨ (∃ r ∈ opsB, ∃ b, i = r.2 b) ∨ (∃ r ∈ opsF, ∃ x, i = r.2 x) ∨
      ∃ cid payload, i = .frameEncode cid payload := by
  cases i with
  | crcClear | crcRead | cmdFwVersion | cmdGetValues => exact .inl (by simp [opsN])
  | crcUpdate | rxByte => exact .inr (.inl (by simp [opsB]))
  | cmdSetDuty | cmdSetCurrent | cmdSetBrake | cmdSetRpm | cmdSetPos | cmdSetServo =>
    exact .inr (.inr (.inl (by simp [opsF])))
  | frameEncode cid payload => exact .inr (.inr (.inr ⟨cid, payload, rfl⟩))
  | _ => cases h

/-- The op bytes, by format; a byte that is no op byte has no operation, whatever follows it (30_encoding.md R74). -/
theorem opByte_cases (op : Byte) :
    (∀ bs, decodeOp (op :: bs) = .error (.illegalOp op)) ∨ (∃ r ∈ opsN, op = r.1) ∨ (∃ r ∈ opsB, op = r.1) ∨
      (∃ r ∈ opsF, op = r.1) ∨ op = 0x10#8 := by
  by_cases h : op ∈ Machine.assignedOps
  · exact .inr (by simpa [Machine.assignedOps, opsN, opsB, opsF, or_assoc, or_left_comm, or_comm] using h)
  · simp only [Machine.assignedOps, List.mem_cons, not_or] at h
    exact .inl fun bs => by simp [decodeOp, h]

/-! ### Decode and encode of the host operations -/

theorem decodeOp_encode {i : Instr} (hspace : i.space = .op) {cfg : Config} (hwf : WellFormed cfg i = true)
    (rest : List Byte) : decodeOp (encode cfg i ++ rest) = .ok (i, rest) := by
  rcases space_op_cases hspace with ⟨r, hr, rfl⟩ | ⟨r, hr, b, rfl⟩ | ⟨r, hr, x, rfl⟩ | ⟨cid, payload, rfl⟩
  · obtain ⟨_, _, hbytes⟩ := encode_opsN cfg r hr
    rw [hbytes]
    exact decodeOp_opsN r hr rest
  · obtain ⟨_, _, hbytes⟩ := encode_opsB cfg b r hr
    rw [hbytes]
    exact decodeOp_opsB r hr (b :: rest)
  · obtain ⟨_, _, hbytes⟩ := encode_opsF cfg x r hr
    rw [hbytes, List.cons_append, decodeOp_opsF r hr, decodeF_be64]
  · rw [encode_frameEncode, List.cons_append, decodeOp_opP, decodeP_operandsP cid (of_decide_eq_true hwf)]

theorem decodeOp_ok {bs rest : List Byte} {i : Instr} (h : decodeOp bs = .ok (i, rest)) (cfg : Config) :
    i.space = .op ∧ WellFormed cfg i = true ∧ encode cfg i ++ rest = bs := by
  cases bs with
  | nil => cases h
  | cons op bs =>
    rcases opByte_cases op with hillegal | ⟨r, hr, rfl⟩ | ⟨r, hr, rfl⟩ | ⟨r, hr, rfl⟩ | rfl
    · rw [hillegal] at h
      cases h
    · obtain ⟨rfl, rfl⟩ := Prod.mk.inj (Except.ok.inj ((decodeOp_opsN r hr bs).symm.trans h))
      obtain ⟨hspace, hwf, hbytes⟩ := encode_opsN cfg r hr
      exact ⟨hspace, hwf, by rw [hbytes]; rfl⟩
    · obtain ⟨b, rfl, rfl⟩ := decodeB_ok ((decodeOp_opsB r hr bs).symm.trans h)
      obtain ⟨hspace, hwf, hbytes⟩ := encode_opsB cfg b r hr
      exact ⟨hspace, hwf, by rw [hbytes]; rfl⟩
    · obtain ⟨x, rfl, rfl⟩ := decodeF_ok ((decodeOp_opsF r hr bs).symm.trans h)
      obtain ⟨hspace, hwf, hbytes⟩ := encode_opsF cfg x r hr
      exact ⟨hspace, hwf, by rw [hbytes]; rfl⟩
    · obtain ⟨cid, payload, rfl, hlen, rfl⟩ := decodeP_ok h
      exact ⟨rfl, decide_eq_true hlen, rfl⟩

/-- Bytes that begin no operation and do not end inside one begin none whatever follows them: their op byte is illegal
(30_encoding.md R73, R74). -/
theorem decodeOp_error {bs : List Byte} {e : DecodeError} (h : decodeOp bs = .error e) :
    e = .truncated ∨ ∀ more, decodeOp (bs ++ more) = .error e := by
  cases bs with
  | nil => exact .inl (Except.error.inj h).symm
  | cons op bs =>
    rcases opByte_cases op with hillegal | ⟨r, hr, rfl⟩ | ⟨r, hr, rfl⟩ | ⟨r, hr, rfl⟩ | rfl
    · exact .inr fun more => (hillegal _).trans ((hillegal bs).symm.trans h)
    · rw [decodeOp_opsN r hr] at h
      cases h
    · exact .inl (decodeB_error ((decodeOp_opsB r hr bs).symm.trans h))
    · exact .inl (decodeF_error ((decodeOp_opsF r hr bs).symm.trans h))
    · exact .inl (decodeP_error h)

/-- A proper beginning of an operation: it begins no shorter operation, because each byte sequence has one meaning. -/
theorem decodeOp_take_encode {i : Instr} (hspace : i.space = .op) {cfg : Config} (hwf : WellFormed cfg i = true) {n : Nat}
    (hn : n < (encode cfg i).length) : decodeOp ((encode cfg i).take n) = .error .truncated := by
  have hwhole : decodeOp ((encode cfg i).take n ++ (encode cfg i).drop n) = .ok (i, []) := by
    simpa using decodeOp_encode hspace hwf []
  cases hdec : decodeOp ((encode cfg i).take n) with
  | ok p =>
    obtain ⟨j, tail⟩ := p
    obtain ⟨hjspace, hjwf, hbytes⟩ := decodeOp_ok hdec cfg
    rw [← hbytes, List.append_assoc, decodeOp_encode hjspace hjwf] at hwhole
    obtain ⟨_, hrest⟩ := Prod.mk.inj (Except.ok.inj hwhole)
    have hdrop := (List.append_eq_nil_iff.1 hrest).2
    exact absurd (List.drop_eq_nil_iff.1 hdrop) (by omega)
  | error e =>
    rcases decodeOp_error hdec with rfl | hmore
    · rfl
    · cases (hmore _).symm.trans hwhole

/-! ### Decode and encode of the frames (30_encoding.md R60, R62) -/

theorem decodeTail_append (mk : List Byte → Word16 → Byte → Instr) (body : List Byte) (crc : Word16) (last : Byte)
    (rest : List Byte) : decodeTail mk body.length (body ++ (be16 crc ++ last :: rest)) = .ok (mk body crc last, rest) := by
  simp [decodeTail, be16]

theorem decodeFrame_encode {i : Instr} (hspace : i.space = .frame) {cfg : Config}
    (hstart : cfg.framing.startShort ≠ cfg.framing.startLong) (hwf : WellFormed cfg i = true) (rest : List Byte) :
    decodeFrame cfg (encode cfg i ++ rest) = .ok (i, rest) := by
  cases i with
  | frameShort body crc last =>
    have hmod : body.length % 256 = body.length := Nat.mod_eq_of_lt (Nat.lt_succ_of_le (of_decide_eq_true hwf))
    simpa [encode, shortFrameBytes, decodeFrame, hmod] using decodeTail_append .frameShort body crc last rest
  | frameLong body crc last =>
    have hmod : body.length % 65536 = body.length := Nat.mod_eq_of_lt (Nat.lt_succ_of_le (of_decide_eq_true hwf))
    simpa [encode, longFrameBytes, decodeFrame, hmod, hstart.symm, be16] using
      decodeTail_append .frameLong body crc last rest
  | _ => cases hspace

theorem decodeFrame_wellFormed {cfg : Config} {bs tail : List Byte} {i : Instr}
    (h : decodeFrame cfg bs = .ok (i, tail)) : WellFormed cfg i = true := by
  cases bs with
  | nil => cases h
  | cons start rest =>
    simp only [decodeFrame] at h
    split at h
    case isTrue =>
      split at h
      case h_1 n bytes =>
        obtain ⟨hi, lo, last, rfl, _⟩ := Machine.decodeTail_ok h
        exact decide_eq_true ((List.length_take_le _ _).trans (Nat.le_of_lt_succ n.isLt))
      case h_2 => cases h
    case isFalse =>
      split at h
      case isTrue =>
        split at h
        case h_1 a b bytes =>
          obtain ⟨hi, lo, last, rfl, _⟩ := Machine.decodeTail_ok h
          exact decide_eq_true ((List.length_take_le _ _).trans (Nat.le_of_lt_succ (word16 a b).isLt))
        case h_2 => cases h
      case isFalse => cases h

/-! ### The argument of a command body (43_command_encoder.md R144, R145) -/

theorem inWidth_iff (width : Nat) (q : Int) :
    inWidth width q = true ↔ -(2 : Int) ^ (8 * width - 1) ≤ q ∧ q ≤ (2 : Int) ^ (8 * width - 1) - 1 := by
  simp [inWidth]

theorem toInt_eq_iff {n : Nat} (hn : 0 < n) (v : BitVec n) (q : Int) :
    v.toInt = q ↔ (-(2 : Int) ^ (n - 1) ≤ q ∧ q ≤ (2 : Int) ^ (n - 1) - 1) ∧ v = BitVec.ofInt n q := by
  constructor
  · rintro rfl
    exact ⟨⟨v.le_toInt, Int.le_sub_one_of_lt v.toInt_lt⟩, BitVec.ofInt_toInt.symm⟩
  · rintro ⟨⟨hlo, hhi⟩, rfl⟩
    exact BitVec.toInt_ofInt_eq_self hn hlo (Int.lt_of_le_sub_one hhi)

theorem argValue_two_eq_some_iff (bs : List Byte) (q : Int) :
    argValue 2 bs = some q ↔ ∃ v, bs = be16 v ∧ v.toInt = q := by
  constructor
  · intro h
    simp only [argValue, if_true] at h
    split at h
    · exact ⟨_, (be16_word16 _ _).symm, Option.some.inj h⟩
    · cases h
  · rintro ⟨v, rfl, rfl⟩
    simp [argValue, be16]

theorem argValue_four_eq_some_iff (bs : List Byte) (q : Int) :
    argValue 4 bs = some q ↔ ∃ v, bs = be32 v ∧ v.toInt = q := by
  constructor
  · intro h
    simp only [argValue, show ¬ 4 = 2 by decide, if_false] at h
    split at h
    · exact ⟨_, (be32_word32 _ _ _ _).symm, Option.some.inj h⟩
    · cases h
  · rintro ⟨v, rfl, rfl⟩
    simp [argValue, be32]

/-- The bytes of an argument are those of the one integer, in the range of the width, whose form they are. -/
theorem argValue_eq_some_iff {width : Nat} (hw : width = 2 ∨ width = 4) (bs : List Byte) (q : Int) :
    argValue width bs = some q ↔ inWidth width q = true ∧ bs = argBytes width q := by
  rw [inWidth_iff]
  rcases hw with rfl | rfl
  · simp only [argValue_two_eq_some_iff, toInt_eq_iff (n := 16) (by decide)]
    grind [argBytes]
  · simp only [argValue_four_eq_some_iff, toInt_eq_iff (n := 32) (by decide)]
    grind [argBytes]

theorem decodeArg_eq_ok_iff {p : CmdParams} (hw : p.width = 2 ∨ p.width = 4) (mk : Int → Instr) (bs : List Byte)
    (i : Instr) :
    decodeArg mk p bs = .ok i ↔ ∃ q, i = mk q ∧ inWidth p.width q = true ∧ bs = argBytes p.width q := by
  simp only [← argValue_eq_some_iff hw, decodeArg]
  cases argValue p.width bs <;> simp [eq_comm]

/-! ### The command bodies (30_encoding.md R63) -/

/-- The setting commands' rows: what an argument makes, and the command's parameters. -/
def settingRows (c : Config) : List ((Int → Instr) × CmdParams) :=
  [(.bodySetDuty, c.duty), (.bodySetCurrent, c.current), (.bodySetBrake, c.brake), (.bodySetRpm, c.rpm),
    (.bodySetPos, c.pos), (.bodySetServo, c.servo)]

theorem encode_settingRows (cfg : Config) (q : Int) : ∀ r ∈ settingRows cfg, (r.1 q).space = .body ∧
    WellFormed cfg (r.1 q) = inWidth r.2.width q ∧ encode cfg (r.1 q) = r.2.cmdId :: argBytes r.2.width q := by
  simp [settingRows, Instr.space, WellFormed, encode, commandBody]

theorem settingRows_width {cfg : Config} (hcfg : cfg.ok = true) :
    ∀ r ∈ settingRows cfg, r.2.width = 2 ∨ r.2.width = 4 := by
  obtain ⟨_, _, hprm⟩ := (Machine.config_ok_iff cfg).1 hcfg
  intro r hr
  obtain ⟨_, hw⟩ := hprm r.2 (List.mem_map_of_mem (f := Prod.snd) hr)
  exact hw

/-- The instructions of the body space. -/
theorem space_body_cases (cfg : Config) {i : Instr} (h : i.space = .body) :
    i = .bodyFwVersion ∨ i = .bodyGetValues ∨ ∃ r ∈ settingRows cfg, ∃ q, i = r.1 q := by
  cases i with
  | bodyFwVersion => exact .inl rfl
  | bodyGetValues => exact .inr (.inl rfl)
  | bodySetDuty | bodySetCurrent | bodySetBrake | bodySetRpm | bodySetPos | bodySetServo =>
    exact .inr (.inr (by simp [settingRows]))
  | _ => cases h

theorem decodeBody_fwVersion (cfg : Config) (arg : List Byte) :
    decodeBody cfg (cfg.fwVersionId :: arg) = if arg = [] then .ok .bodyFwVersion else .error .notACommandBody := by
  simp [decodeBody]

/-- The ids differ (00_scope.md R3), so each leads to its own command. -/
theorem decodeBody_getValues {cfg : Config} (hids : cfg.cmdIds.Nodup) (arg : List Byte) :
    decodeBody cfg (cfg.getValuesId :: arg) = if arg = [] then .ok .bodyGetValues else .error .notACommandBody := by
  simp only [Config.cmdIds, List.nodup_cons, List.mem_cons, not_or] at hids
  simp [decodeBody, hids, eq_comm]

theorem decodeBody_setting {cfg : Config} (hids : cfg.cmdIds.Nodup) (arg : List Byte) :
    ∀ r ∈ settingRows cfg, decodeBody cfg (r.2.cmdId :: arg) = decodeArg r.1 r.2 arg := by
  simp only [Config.cmdIds, List.nodup_cons, List.mem_cons, not_or] at hids
  simp [settingRows, decodeBody, hids, eq_comm]

/-- The ids, by what follows them; any other byte begins no command body. -/
theorem cmdId_cases (cfg : Config) (cid : Byte) :
    (∀ arg, decodeBody cfg (cid :: arg) = .error .notACommandBody) ∨ cid = cfg.fwVersionId ∨ cid = cfg.getValuesId ∨
      ∃ r ∈ settingRows cfg, cid = r.2.cmdId := by
  by_cases h : cid ∈ cfg.cmdIds
  · exact .inr (by simpa [Config.cmdIds, settingRows] using h)
  · simp only [Config.cmdIds, List.mem_cons, not_or] at h
    exact .inl fun arg => by simp [decodeBody, h]

theorem noArg_eq_ok_iff (arg : List Byte) (i j : Instr) :
    (if arg = [] then .ok j else .error .notACommandBody) = (.ok i : Except DecodeError Instr) ↔ i = j ∧ arg = [] := by
  split <;> simp_all [eq_comm]

theorem decodeBody_encode {i : Instr} (hspace : i.space = .body) {cfg : Config} (hcfg : cfg.ok = true)
    (hwf : WellFormed cfg i = true) : decodeBody cfg (encode cfg i) = .ok i := by
  obtain ⟨_, hids, _⟩ := (Machine.config_ok_iff cfg).1 hcfg
  rcases space_body_cases cfg hspace with rfl | rfl | ⟨r, hr, q, rfl⟩
  · exact decodeBody_fwVersion cfg []
  · exact decodeBody_getValues hids []
  · obtain ⟨_, hwidth, hbytes⟩ := encode_settingRows cfg q r hr
    rw [hbytes, decodeBody_setting hids _ r hr, decodeArg_eq_ok_iff (settingRows_width hcfg r hr)]
    exact ⟨q, rfl, hwidth ▸ hwf, rfl⟩

theorem decodeBody_ok {cfg : Config} (hcfg : cfg.ok = true) {bs : List Byte} {i : Instr}
    (h : decodeBody cfg bs = .ok i) : i.space = .body ∧ WellFormed cfg i = true ∧ encode cfg i = bs := by
  cases bs with
  | nil => cases h
  | cons cid arg =>
    obtain ⟨_, hids, _⟩ := (Machine.config_ok_iff cfg).1 hcfg
    rcases cmdId_cases cfg cid with hother | rfl | rfl | ⟨r, hr, rfl⟩
    · rw [hother] at h
      cases h
    · obtain ⟨rfl, rfl⟩ := (noArg_eq_ok_iff _ _ _).1 ((decodeBody_fwVersion cfg arg).symm.trans h)
      exact ⟨rfl, rfl, rfl⟩
    · obtain ⟨rfl, rfl⟩ := (noArg_eq_ok_iff _ _ _).1 ((decodeBody_getValues hids arg).symm.trans h)
      exact ⟨rfl, rfl, rfl⟩
    · rw [decodeBody_setting hids arg r hr, decodeArg_eq_ok_iff (settingRows_width hcfg r hr)] at h
      obtain ⟨q, rfl, hq, rfl⟩ := h
      obtain ⟨hspace, hwidth, hbytes⟩ := encode_settingRows cfg q r hr
      exact ⟨hspace, hwidth.trans hq, hbytes⟩

end Sys2Proof

namespace Sys2Proof.Machine

/-! ### Decode and encode agree -/

/-- Settles O13, space by space: by format in the op space, by start marker in the frame space, by id in the body
space. -/
theorem decodeOfEncodeIsIdentity : Obligations.DecodeOfEncodeIsIdentity := by
  intro cfg i rest hcfg hstart hwf hrest
  cases hspace : i.space with
  | op => exact decodeOp_encode hspace hwf rest
  | frame => exact decodeFrame_encode hspace hstart hwf rest
  | body =>
    obtain rfl := hrest hspace
    simp [decodeIn, decodeBody_encode hspace hcfg hwf, Except.map]

/-- Settles O14, space by space: each decoder reads the bytes that the encoder writes, and no others. -/
theorem encodeOfDecodeIsIdentity : Obligations.EncodeOfDecodeIsIdentity := by
  intro cfg sp bs rest i hcfg h
  cases sp with
  | op => exact decodeOp_ok h cfg
  | frame =>
    obtain ⟨hspace, hbytes⟩ := decodeFrame_ok h
    exact ⟨hspace, decodeFrame_wellFormed h, hbytes⟩
  | body =>
    cases hdec : decodeBody cfg bs with
    | ok j =>
      obtain ⟨rfl, rfl⟩ : j = i ∧ [] = rest := by simpa [decodeIn, hdec, Except.map] using h
      simpa using decodeBody_ok hcfg hdec
    | error e => simp [decodeIn, hdec, Except.map] at h

/-! ### A stream that ends inside an operation (30_encoding.md R73) -/

theorem step_of_truncated {s : State} {bs : List Byte} {rest : List Input} (hs : StateInv s)
    (hin : s.input = .ops bs :: rest) (hne : bs ≠ []) (hd : decodeOp bs = .error .truncated) :
    step s = .refused .truncatedOp := by
  obtain ⟨hcfg, hrx⟩ := hs
  obtain ⟨b, bs, rfl⟩ := List.exists_cons_of_ne_nil hne
  have hf : fetch s = .truncated := by simp [fetch, hin, fetchFrom, fetchOps, hd]
  simp [step, hcfg, hrx, hf]

/-- Settles O10: were a proper beginning an operation, the whole would have two meanings. -/
theorem truncatedOperationRefused : Obligations.TruncatedOperationRefused := by
  intro cfg i n hspace hwf hpos hn
  have hdec := decodeOp_take_encode hspace hwf hn
  have hne : (encode cfg i).take n ≠ [] := List.ne_nil_of_length_pos (by rw [List.length_take]; omega)
  exact ⟨hdec, fun s rest hs hin => step_of_truncated hs hin hne hdec⟩

/-! ### The frame rows (log 8) -/

/-- Settles O47: a frame row is RX.BYTE of the start marker, and the steps after it receive the other bytes. -/
theorem frameRowsAreByteSequences : Obligations.FrameRowsAreByteSequences := by
  intro s i hi
  have hspace : i.space = .frame := by rcases hi with ⟨_, _, _, rfl⟩ | ⟨_, _, _, rfl⟩ <;> rfl
  obtain ⟨b, c, tail, he⟩ := encode_of_frame hspace s.cfg
  refine ⟨b, c :: tail, rxStep { s with input := .line (c :: tail) :: s.input } b, rxFeed (encode s.cfg i) s, he, ?_, rfl,
    runInstrs_rxByte _ s, fun hs => ?_⟩
  · rw [exec_of_frame hspace, he, receiveFirst_cons, putBack_cons]
  · obtain ⟨hcfg, hrx⟩ := hs
    have hinv : StateInv (rxStep { s with input := .line (c :: tail) :: s.input } b) :=
      ⟨by simpa using hcfg, rxStep_rxInv _ b hrx⟩
    have hrun := run_of_presentsLine hinv (bs := c :: tail) (rest := s.input) ⟨[c :: tail], by simp⟩
    rw [rxStep_withInput] at hrun
    rw [he]
    exact hrun

/-! ### Sizes and words -/

/-- Settles O15, format by format. -/
theorem encodedSizes : Obligations.EncodedSizes := by
  intro cfg b c x crc bs
  refine ⟨?formatN, ?formatB, ?formatF, ?formatP, ?short, ?long⟩
  case formatN | formatB | formatF => simp [encode]
  case formatP => simp +arith [encode]
  case short => simp [encode, shortFrameBytes]
  case long => simp +arith [encode, longFrameBytes]

/-- Settles O16: the decoders evaluated at the words. -/
theorem specWordsDecode : Obligations.SpecWordsDecode := by
  refine ⟨?_, ?_, ?_, ?_, ?_, ?_, ?_, ?_⟩ <;> decide

/-! ### What is sent, with the wire constants of the source -/

theorem makeFrame_source {cfg : Config} (hwire : SourceWire cfg) {body : List Byte} (hlen : body.length ≤ cfg.maxLen) :
    makeFrame cfg body = .ok (sourceFrame body) := by
  obtain ⟨hframing, hcrc⟩ := hwire
  rcases makeFrame_cases cfg body with ⟨hlong, _⟩ | ⟨_, hshort, h⟩ | ⟨_, hshort, h⟩
  · omega
  · rw [hframing] at h hshort
    have hle : body.length ≤ 255 := hshort
    simp [h, hcrc, sourceFrame, hle, shortFrameBytes, FramingParams.source]
  · rw [hframing] at h hshort
    have hlt : ¬ body.length ≤ 255 := Nat.not_le.2 hshort
    simp [h, hcrc, sourceFrame, hlt, longFrameBytes, FramingParams.source]

theorem sendBody_source {s : State} (hwire : SourceWire s.cfg) {body : List Byte} (hlen : body.length ≤ s.cfg.maxLen) :
    sendBody body s = emitted s body := by
  simp [sendBody, makeFrame_source hwire hlen, State.emit, State.hostResult, emitted, okResult]

theorem sendBody_oversized {s : State} {body : List Byte} (hlen : s.cfg.maxLen < body.length) :
    sendBody body s = returned s .txOversized := by
  simp [sendBody, makeFrame, hlen, raise_eq, returned]

/-! ### The body rows and the commands (30_encoding.md R63, R78; log 9) -/

theorem sendsBody_of_exec {mk : Int → Instr} {prm : Config → CmdParams}
    (hexec : ∀ q s, exec (mk q) s = .next (sendBody (commandBody (prm s.cfg) q) s)) : SendsBody mk prm := by
  intro q s hwire
  have hlen : (commandBody (prm s.cfg) q).length = 1 + (argBytes (prm s.cfg).width q).length := Nat.add_comm _ _
  rw [hexec, ← hlen]
  exact ⟨fun h => congrArg Host.Outcome.next (sendBody_source hwire h),
    fun h => congrArg Host.Outcome.next (sendBody_oversized h)⟩

/-- Settles O31: every body row is `sendBody` of its body. -/
theorem bodyRowsSend : Obligations.BodyRowsSend := by
  refine ⟨fun s hwire => ⟨fun hmax => ?_, fun hmax => ?_⟩, ?_, ?_, ?_, ?_, ?_, ?_⟩
  · exact ⟨congrArg Host.Outcome.next (sendBody_source hwire hmax),
      congrArg Host.Outcome.next (sendBody_source hwire hmax)⟩
  · have hlong : s.cfg.maxLen < 1 := by omega
    exact ⟨congrArg Host.Outcome.next (sendBody_oversized hlong), congrArg Host.Outcome.next (sendBody_oversized hlong)⟩
  all_goals exact sendsBody_of_exec fun _ _ => rfl

theorem cmdSet_of_fxEncode {p : CmdParams} {x : Word64} {s : State} {q : Int}
    (h : fxEncode s.cfg.product s.cfg.tie p x = .ok q) : cmdSet p x s = sendBody (commandBody p q) s := by
  simp [cmdSet, h]

/-- Settles O32: both sides are `sendBody` of one body. -/
theorem commandsEqualFrameEncode : Obligations.CommandsEqualFrameEncode := by
  intro s x q
  refine ⟨rfl, rfl, fun mk prm hrow hq => ?_⟩
  have hexec : exec (mk x) s = .next (cmdSet prm x s) := by
    simp only [List.mem_cons, Prod.mk.injEq, List.not_mem_nil, or_false] at hrow
    rcases hrow with ⟨rfl, rfl⟩ | ⟨rfl, rfl⟩ | ⟨rfl, rfl⟩ | ⟨rfl, rfl⟩ | ⟨rfl, rfl⟩ | ⟨rfl, rfl⟩ <;> rfl
  rw [hexec, cmdSet_of_fxEncode hq]
  rfl

end Sys2Proof.Machine
end

section
/-! PROOFS. The statements of 41_crc16.md: the CRC as a linear shift register (R101), what follows from that (R102), the
polynomial it divides by (R100) and the three operations (R103 to R106). -/

namespace Sys2Proof.Machine

/-! ### One bit: the shift of R101, with the source's polynomial -/

/-- One bit of the CRC with `CRC_POLY` of the source: multiplication by x modulo the generator. -/
def mulX : Word16 → Word16 := crcShift CrcParams.source.poly

theorem mulX_eq (c : Word16) : mulX c = (c <<< 1) ^^^ if c.getMsbD 0 then 0x1021#16 else 0#16 := by
  cases h : c.getMsbD 0 <;> simp [mulX, crcShift, h, CrcParams.source]

theorem mulX_of_msb {c : Word16} (h : c.getMsbD 0 = true) : mulX c = (c <<< 1) ^^^ 0x1021#16 := by
  simp [mulX_eq, h]

theorem mulX_of_not_msb {c : Word16} (h : c.getMsbD 0 = false) : mulX c = c <<< 1 := by
  simp [mulX_eq, h]

theorem mulX_xor (c d : Word16) : mulX (c ^^^ d) = mulX c ^^^ mulX d := by
  have hadd : ∀ p q : Bool, (if p ^^ q then 0x1021#16 else 0#16) =
      (if p then 0x1021#16 else 0#16) ^^^ (if q then 0x1021#16 else 0#16) := by decide
  rw [mulX_eq, mulX_eq, mulX_eq, BitVec.shiftLeft_xor_distrib, BitVec.getMsbD_xor, hadd]
  ac_rfl

theorem mulX_zero : mulX 0#16 = 0#16 := rfl

/-- The generator ends in + 1: a shift that adds it leaves an odd value, one that does not an even one. -/
theorem mulX_getLsbD_zero (c : Word16) : (mulX c).getLsbD 0 = c.getMsbD 0 := by
  cases h : c.getMsbD 0
  · simp [mulX_of_not_msb h]
  · simp [mulX_of_msb h]

/-- The top bit and the rest of a value, from its shift to the left. -/
theorem eq_of_shiftLeft_one_eq {c d : Word16} (hmsb : c.getMsbD 0 = d.getMsbD 0) (h : c <<< 1 = d <<< 1) : c = d := by
  apply BitVec.eq_of_getMsbD_eq
  intro i hi
  cases i with
  | zero => exact hmsb
  | succ i =>
    have hbit := congrArg (BitVec.getMsbD · i) h
    simpa [show i < 16 by omega, Nat.add_comm] using hbit

theorem mulX_injective : Function.Injective mulX := by
  intro c d h
  have hmsb : c.getMsbD 0 = d.getMsbD 0 := by
    rw [← mulX_getLsbD_zero, ← mulX_getLsbD_zero, h]
  refine eq_of_shiftLeft_one_eq hmsb ?_
  cases hd : d.getMsbD 0 <;> rw [hd] at hmsb
  · simpa only [mulX_of_not_msb hmsb, mulX_of_not_msb hd] using h
  · simpa only [mulX_of_msb hmsb, mulX_of_msb hd, BitVec.xor_left_inj] using h

/-! ### n bits: multiplication by a power of x -/

theorem iterate_mulX_xor (n : Nat) (c d : Word16) : mulX^[n] (c ^^^ d) = mulX^[n] c ^^^ mulX^[n] d := by
  induction n with
  | zero => rfl
  | succ n ih => simp only [Function.iterate_succ_apply', ih, mulX_xor]

theorem iterate_mulX_zero (n : Nat) : mulX^[n] 0#16 = 0#16 := Function.iterate_fixed mulX_zero n

/-- Nothing is reduced while the top bits are 0. -/
theorem iterate_mulX_of_lt {n : Nat} {c : Word16} (h : c.toNat * 2 ^ n < 2 ^ 16) : mulX^[n] c = c <<< n := by
  induction n generalizing c with
  | zero => simp
  | succ n ih =>
    have hlow : c.toNat * 2 < 2 ^ 16 := by
      calc c.toNat * 2 ≤ c.toNat * 2 ^ (n + 1) := Nat.mul_le_mul_left _ (Nat.le_self_pow (by omega) 2)
        _ < 2 ^ 16 := h
    have hmsb : c.getMsbD 0 = false := by
      rw [BitVec.getMsbD_eq_getLsbD]
      simp [BitVec.getLsbD, Nat.testBit_lt_two_pow (show c.toNat < 2 ^ 15 by omega)]
    have hval : (c <<< 1).toNat = c.toNat * 2 := by
      rw [BitVec.toNat_shiftLeft, Nat.shiftLeft_eq, Nat.mod_eq_of_lt (by simpa using hlow), pow_one]
    rw [Function.iterate_succ_apply, mulX_of_not_msb hmsb, ih (by rwa [hval, mul_assoc, ← pow_succ']),
      ← BitVec.shiftLeft_add, Nat.add_comm]

/-! ### One byte and a sequence (R101), with the source's parameters -/

theorem repeat_eq_iterate (f : Word16 → Word16) (n : Nat) (c : Word16) : Nat.repeat f n c = f^[n] c := by
  induction n with
  | zero => rfl
  | succ n ih => rw [Function.iterate_succ_apply', ← ih, Nat.repeat]

/-- The bits of a byte as the high byte of a 16-bit value. -/
def highByte (b : Byte) : Word16 := b.zeroExtend 16 <<< 8

theorem highByte_xor (a b : Byte) : highByte (a ^^^ b) = highByte a ^^^ highByte b := by
  simp [highByte, BitVec.shiftLeft_xor_distrib]

theorem crcStep_source (c : Word16) (b : Byte) : crcStep CrcParams.source c b = mulX^[8] (c ^^^ highByte b) :=
  repeat_eq_iterate mulX 8 _

theorem crc16_source (bs : List Byte) : crc16 CrcParams.source bs = bs.foldl (crcStep CrcParams.source) 0#16 := by
  simp [crc16, crcOut, CrcParams.source]

theorem crc16_source_append (as bs : List Byte) :
    crc16 CrcParams.source (as ++ bs) = bs.foldl (crcStep CrcParams.source) (crc16 CrcParams.source as) := by
  simp only [crc16_source, List.foldl_append]

theorem crc16_source_singleton (b : Byte) : crc16 CrcParams.source [b] = mulX^[8] (highByte b) := by
  rw [crc16_source, List.foldl_cons, List.foldl_nil, crcStep_source, BitVec.zero_xor]

theorem crcStep_xor (c d : Word16) (a b : Byte) : crcStep CrcParams.source (c ^^^ d) (a ^^^ b) =
    crcStep CrcParams.source c a ^^^ crcStep CrcParams.source d b := by
  rw [crcStep_source, crcStep_source, crcStep_source, ← iterate_mulX_xor, highByte_xor]
  ac_rfl

theorem iterate_mulX_byte (b : Byte) : mulX^[8] (b.zeroExtend 16) = highByte b := by
  have hb := b.isLt
  have hval : (b.zeroExtend 16).toNat = b.toNat := by simp; omega
  exact iterate_mulX_of_lt (by omega)

theorem highByte_lowByte (c : Word16) : highByte (c.extractLsb' 0 8) = c <<< 8 := by
  apply BitVec.eq_of_getLsbD_eq
  intro i hi
  grind [highByte]

theorem highByte_xor_lowByte (c : Word16) :
    highByte (c.extractLsb' 8 8) ^^^ (c.extractLsb' 0 8).zeroExtend 16 = c := by
  apply BitVec.eq_of_getLsbD_eq
  intro i hi
  grind [highByte]

/-- The table form of R102 item 2: the low byte of the register moves up, its high byte meets the byte folded in. -/
theorem crcStep_table (c : Word16) (b : Byte) : crcStep CrcParams.source c b =
    (c <<< 8) ^^^ crc16 CrcParams.source [c.extractLsb' 8 8 ^^^ b] := by
  have hsplit : c ^^^ highByte b = (c.extractLsb' 0 8).zeroExtend 16 ^^^ highByte (c.extractLsb' 8 8 ^^^ b) := by
    nth_rw 1 [← highByte_xor_lowByte c]
    rw [highByte_xor]
    ac_rfl
  rw [crcStep_source, hsplit, iterate_mulX_xor, iterate_mulX_byte, highByte_lowByte, crc16_source_singleton]

/-! ### The operations (R103 to R106) -/

theorem exec_crcClear (s : State) :
    exec .crcClear s = .next { s with crcReg := s.cfg.crc.init, hostRes := s.hostRes ++ [okResult] } := rfl

theorem exec_crcUpdate (b : Byte) (s : State) : exec (.crcUpdate b) s =
    .next { s with crcReg := crcStep s.cfg.crc s.crcReg b, hostRes := s.hostRes ++ [okResult] } := rfl

theorem exec_crcRead (s : State) : exec .crcRead s =
    .next { s with hostRes := s.hostRes ++ [⟨.ok, some (crcOut s.cfg.crc s.crcReg)⟩] } := rfl

theorem crcOut_source (c : Word16) : crcOut CrcParams.source c = c := by
  simp [crcOut, CrcParams.source]

theorem runInstrs_crcUpdate (bs : List Byte) (s : State) : runInstrs (bs.map .crcUpdate) s = .next { s with
    crcReg := bs.foldl (crcStep s.cfg.crc) s.crcReg, hostRes := s.hostRes ++ List.replicate bs.length okResult } := by
  induction bs generalizing s with
  | nil => simp [runInstrs]
  | cons b bs ih =>
    rw [List.map_cons, runInstrs_cons (exec_crcUpdate b s), ih]
    simp [List.replicate_succ]

/-- Settles O18: `CRC_INIT` of the source is 0x0000. -/
theorem crcClearClears : Obligations.CrcClearClears := by
  refine ⟨fun _ => rfl, fun s hsource => ?_⟩
  rw [exec_crcClear, hsource]
  rfl

/-- Settles O20: with the source's parameters the register is given out as it is. -/
theorem crcReadReturnsRegister : Obligations.CrcReadReturnsRegister := by
  refine ⟨fun _ => rfl, fun s hsource => ?_⟩
  rw [exec_crcRead, hsource, crcOut_source]

/-- Settles O19, by the table form of the step. -/
theorem crcUpdateFoldsByte : Obligations.CrcUpdateFoldsByte := by
  intro b s hsource
  rw [exec_crcUpdate, hsource, crcStep_table]

/-- Settles O21: CRC.CLEAR puts the initial value there, and the updates fold the bytes onto it. -/
theorem crcBlockComputesCrc16 : Obligations.CrcBlockComputesCrc16 := by
  intro bs s hsource
  rw [runInstrs_cons (exec_crcClear s), runInstrs_crcUpdate]
  simp [hsource, crc16, crcOut_source, List.replicate_succ]

/-! ### What follows from R101 (R102) -/

/-- Settles O22: a zero byte leaves the zero register at zero; the entries are evaluated. -/
theorem crcOfZerosAndTable : Obligations.CrcOfZerosAndTable := by
  refine ⟨fun n => ?_, by decide, by decide, by decide, by decide, by decide⟩
  have hstep : crcStep CrcParams.source 0#16 0x00#8 = 0#16 := by decide
  induction n with
  | zero => rfl
  | succ n ih => rw [List.replicate_succ', crc16_source_append, ih, List.foldl_cons, List.foldl_nil, hstep]

theorem foldl_crcStep_zipWith_xor {as bs : List Byte} (h : as.length = bs.length) (c d : Word16) :
    (List.zipWith (· ^^^ ·) as bs).foldl (crcStep CrcParams.source) (c ^^^ d) =
      as.foldl (crcStep CrcParams.source) c ^^^ bs.foldl (crcStep CrcParams.source) d := by
  induction as generalizing bs c d with
  | nil =>
    obtain rfl := List.eq_nil_of_length_eq_zero h.symm
    rfl
  | cons a as ih =>
    obtain ⟨b, bs, rfl⟩ := List.exists_cons_of_length_eq_add_one h.symm
    simp only [List.zipWith_cons_cons, List.foldl_cons, crcStep_xor]
    exact ih (by simpa using h) _ _

/-- Settles O23: every step is linear, and the initial value is 0. -/
theorem crcIsLinear : Obligations.CrcIsLinear := by
  intro as bs h
  simpa only [crc16_source, BitVec.xor_self] using foldl_crcStep_zipWith_xor h 0#16 0#16

/-- A byte equal to the register's high byte shifts that byte out. -/
theorem crcStep_highByte (c : Word16) : crcStep CrcParams.source c (c.extractLsb' 8 8) = c <<< 8 := by
  have hzero : crc16 CrcParams.source [0#8] = 0#16 := by decide
  rw [crcStep_table, BitVec.xor_self, hzero, BitVec.xor_zero]

/-- Settles O24: the two bytes of the CRC shift the register's two bytes out. -/
theorem crcResidueIsZero : Obligations.CrcResidueIsZero := by
  intro bs
  have hlow (c : Word16) : c.extractLsb' 0 8 = (c <<< 8).extractLsb' 8 8 := by
    apply BitVec.eq_of_getLsbD_eq
    intro i hi
    grind
  rw [crc16_source_append, be16, List.foldl_cons, List.foldl_cons, List.foldl_nil, crcStep_highByte, hlow,
    crcStep_highByte, ← BitVec.shiftLeft_add]
  exact BitVec.shiftLeft_eq_zero (by decide)

/-! ### Flipped bits (R102 item 5) -/

theorem flipBit_length (bs : List Byte) (j : Nat) : (flipBit bs j).length = bs.length :=
  List.length_modify ..

theorem flipBit_cons_of_lt (b : Byte) (bs : List Byte) {j : Nat} (hj : j < 8) :
    flipBit (b :: bs) j = (b ^^^ (0x80#8 >>> j)) :: bs := by
  simp [flipBit, Nat.div_eq_of_lt hj, Nat.mod_eq_of_lt hj]

theorem flipBit_cons_add (b : Byte) (bs : List Byte) (j : Nat) : flipBit (b :: bs) (j + 8) = b :: flipBit bs j := by
  simp [flipBit]

/-- A bit of the byte folded in, after the bits above it, is the top bit of the register. -/
theorem iterate_mulX_highByte_bit : ∀ k < 8, mulX^[k] (highByte (0x80#8 >>> k)) = 0x8000#16 := by decide

/-- A difference in the register is shifted by the bytes folded in after it. -/
theorem foldl_crcStep_xor (bs : List Byte) (c d : Word16) :
    bs.foldl (crcStep CrcParams.source) (c ^^^ d) =
      bs.foldl (crcStep CrcParams.source) c ^^^ mulX^[8 * bs.length] d := by
  induction bs generalizing c d with
  | nil => rfl
  | cons b bs ih =>
    have hstep : crcStep CrcParams.source (c ^^^ d) b = crcStep CrcParams.source c b ^^^ mulX^[8] d := by
      rw [crcStep_source, crcStep_source, ← iterate_mulX_xor]
      ac_rfl
    rw [List.foldl_cons, List.foldl_cons, hstep, ih, ← Function.iterate_add_apply]
    rfl

/-- What a flipped bit contributes: a power of x, counted from the end of the sequence. -/
theorem foldl_crcStep_flipBit {bs : List Byte} {j : Nat} (hj : j < 8 * bs.length) (c : Word16) :
    (flipBit bs j).foldl (crcStep CrcParams.source) c =
      bs.foldl (crcStep CrcParams.source) c ^^^ mulX^[8 * bs.length - j] 0x8000#16 := by
  induction bs generalizing j c with
  | nil => exact absurd hj (Nat.not_lt_zero _)
  | cons b bs ih =>
    rw [List.length_cons] at hj ⊢
    by_cases hfirst : j < 8
    · have hstep : crcStep CrcParams.source c (b ^^^ (0x80#8 >>> j)) =
          crcStep CrcParams.source c b ^^^ mulX^[8] (highByte (0x80#8 >>> j)) := by
        rw [crcStep_source, crcStep_source, highByte_xor, ← BitVec.xor_assoc, iterate_mulX_xor]
      rw [flipBit_cons_of_lt b bs hfirst, List.foldl_cons, List.foldl_cons, hstep, foldl_crcStep_xor,
        ← Function.iterate_add_apply, ← iterate_mulX_highByte_bit j hfirst, ← Function.iterate_add_apply]
      congr 2
      omega
    · obtain ⟨k, rfl⟩ := Nat.exists_eq_add_of_le' (Nat.not_lt.1 hfirst)
      rw [flipBit_cons_add, List.foldl_cons, List.foldl_cons, ih (by omega)]
      congr 2
      omega

theorem crc16_flipBit {bs : List Byte} {j : Nat} (hj : j < 8 * bs.length) : crc16 CrcParams.source (flipBit bs j) =
    crc16 CrcParams.source bs ^^^ mulX^[8 * bs.length - j] 0x8000#16 := by
  rw [crc16_source, crc16_source, foldl_crcStep_flipBit hj]

/-- x is invertible modulo the generator. -/
theorem iterate_mulX_ne_zero (n : Nat) {c : Word16} (hc : c ≠ 0#16) : mulX^[n] c ≠ 0#16 := by
  rw [← iterate_mulX_zero n]
  exact fun h => hc (mulX_injective.iterate n h)

/-- The product of v, modulo the generator, with the polynomial of the top k bits of c, by Horner's rule. -/
def mulTopBits (v c : Word16) : Nat → Word16
  | 0 => 0#16
  | k + 1 => mulX (mulTopBits v c k) ^^^ if c.getMsbD k then v else 0#16

theorem iterate_mulX_mulTopBits (n : Nat) (v c : Word16) (k : Nat) :
    mulX^[n] (mulTopBits v c k) = mulTopBits (mulX^[n] v) c k := by
  induction k with
  | zero => exact iterate_mulX_zero n
  | succ k ih =>
    rw [mulTopBits, mulTopBits, iterate_mulX_xor, ← ih, (Function.Commute.iterate_self mulX n).eq,
      apply_ite mulX^[n], iterate_mulX_zero]

/-- The top bits of c times 1 are the top bits of c. -/
theorem mulTopBits_one (c : Word16) {k : Nat} (hk : k ≤ 16) : mulTopBits 1#16 c k = c >>> (16 - k) := by
  induction k with
  | zero => exact (BitVec.ushiftRight_eq_zero (by decide)).symm
  | succ k ih =>
    rw [mulTopBits, ih (by omega), mulX_of_not_msb (by simp; omega)]
    apply BitVec.eq_of_getLsbD_eq
    intro i hi
    cases hb : c.getMsbD k <;> grind

theorem iterate_mulX_eq_mulTopBits (n : Nat) (c : Word16) : mulX^[n] c = mulTopBits (mulX^[n] 1#16) c 16 := by
  rw [← iterate_mulX_mulTopBits, mulTopBits_one c le_rfl, Nat.sub_self, BitVec.ushiftRight_zero]

/-- The square modulo the generator. -/
def square (c : Word16) : Word16 := mulTopBits c c 16

theorem iterate_mulX_two_pow (k : Nat) : mulX^[2 ^ k] 1#16 = square^[k] 0x0002#16 := by
  induction k with
  | zero => rfl
  | succ k ih =>
    rw [pow_succ, mul_two, Function.iterate_add_apply, iterate_mulX_eq_mulTopBits, ih, Function.iterate_succ_apply',
      square]

/-- Where squaring x k times gives x back, x^(2^k - 1) is 1 modulo the generator. -/
theorem iterate_mulX_of_square {n k : Nat} (hn : n + 1 = 2 ^ k) (hk : square^[k] 0x0002#16 = 0x0002#16) (c : Word16) :
    mulX^[n] c = c := by
  have hone : mulX^[n] 1#16 = 1#16 := by
    apply mulX_injective
    rw [← Function.iterate_succ_apply' mulX, Nat.succ_eq_add_one, hn, iterate_mulX_two_pow, hk]
    rfl
  rw [iterate_mulX_eq_mulTopBits, hone]
  exact (iterate_mulX_eq_mulTopBits 0 c).symm

/-- The period of R102 item 5. -/
theorem iterate_mulX_period (c : Word16) : mulX^[32767] c = c :=
  iterate_mulX_of_square (k := 15) (by norm_num) (by decide +kernel) c

/-- Settles O25: a flipped bit adds a power of x to the CRC, which is not 0; two flipped bits add two, and x^32767 is 1
modulo the generator. -/
theorem crcDetectsEverySingleBit : Obligations.CrcDetectsEverySingleBit := by
  refine ⟨fun bs j hj h => ?_, fun bs j hj => ?_⟩
  · rw [crc16_flipBit hj] at h
    exact iterate_mulX_ne_zero _ (by decide) ((BitVec.xor_right_inj _).1 (h.trans BitVec.xor_zero.symm))
  · have hdist : 8 * bs.length - j = 8 * bs.length - (j + 32767) + 32767 := by omega
    rw [crc16_flipBit (by rwa [flipBit_length]), crc16_flipBit (by omega), flipBit_length, hdist,
      Function.iterate_add_apply, iterate_mulX_period, BitVec.xor_assoc, BitVec.xor_self, BitVec.xor_zero]

/-! ### The polynomial remainder (R100) -/

section Remainder

open Polynomial

/-- The generator polynomial of 41_crc16.md section 1. -/
noncomputable def generator : (ZMod 2)[X] := X ^ 16 + X ^ 12 + X ^ 5 + 1

theorem bitsPoly_append (as bs : List Bool) :
    bitsPoly (as ++ bs) = bitsPoly as * X ^ bs.length + bitsPoly bs := by
  induction bs using List.reverseRecOn with
  | nil => simp [bitsPoly]
  | append_singleton bs b ih =>
    have hsnoc (l : List Bool) : bitsPoly (l ++ [b]) = bitsPoly l * X + if b then 1 else 0 := by simp [bitsPoly]
    rw [← List.append_assoc, hsnoc, ih, hsnoc, List.length_append, List.length_singleton]
    ring

theorem bitsPoly_cons (b : Bool) (bs : List Bool) :
    bitsPoly (b :: bs) = (if b then X ^ bs.length else 0) + bitsPoly bs := by
  rw [← List.singleton_append, bitsPoly_append]
  simp [bitsPoly]

theorem bitsOf_append (as bs : List Byte) : bitsOf (as ++ bs) = bitsOf as ++ bitsOf bs := List.flatMap_append

theorem bitsOf_singleton_length (b : Byte) : (bitsOf [b]).length = 8 := rfl

theorem bitsPoly_bitsOf_append_singleton (bs : List Byte) (b : Byte) :
    bitsPoly (bitsOf (bs ++ [b])) = bitsPoly (bitsOf bs) * X ^ 8 + bitsPoly (bitsOf [b]) := by
  rw [bitsOf_append, bitsPoly_append, bitsOf_singleton_length]

/-- The polynomial of a register value: bit i is the coefficient of X^i. -/
noncomputable def wordPoly (c : Word16) : (ZMod 2)[X] := ∑ i ∈ Finset.range 16, if c.getLsbD i then X ^ i else 0

theorem bitsPoly_be16 (c : Word16) : bitsPoly (bitsOf (be16 c)) = wordPoly c := by
  have hnil : bitsPoly [] = 0 := rfl
  have hbits : bitsOf (be16 c) = (List.range 16).map c.getMsbD := by
    simp [bitsOf, be16, List.range_succ]
  simp [hbits, hnil, List.range_succ, bitsPoly_cons, wordPoly, Finset.sum_range_succ_comm, BitVec.getMsbD_eq_getLsbD]

theorem wordPoly_xor (c d : Word16) : wordPoly (c ^^^ d) = wordPoly c + wordPoly d := by
  rw [wordPoly, wordPoly, wordPoly, ← Finset.sum_add_distrib]
  refine Finset.sum_congr rfl fun i _ => ?_
  rw [BitVec.getLsbD_xor]
  cases c.getLsbD i <;> cases d.getLsbD i <;> simp [CharTwo.add_self_eq_zero]

theorem wordPoly_shiftLeft_one (c : Word16) :
    wordPoly (c <<< 1) = X * ∑ i ∈ Finset.range 15, if c.getLsbD i then X ^ i else 0 := by
  have hlast : (c <<< 1).getLsbD 0 = false := by simp
  rw [wordPoly, Finset.sum_range_succ', hlast, Finset.mul_sum]
  refine (add_eq_left.2 (if_neg Bool.false_ne_true)).trans (Finset.sum_congr rfl fun i hi => ?_)
  have hbit : (c <<< 1).getLsbD (i + 1) = c.getLsbD i := by
    rw [BitVec.getLsbD_shiftLeft]
    grind
  rw [hbit, mul_ite, mul_zero, pow_succ']

theorem X_mul_wordPoly (c : Word16) : X * wordPoly c = wordPoly (c <<< 1) + if c.getMsbD 0 then X ^ 16 else 0 := by
  have htop : c.getMsbD 0 = c.getLsbD 15 := by simp [BitVec.getMsbD_eq_getLsbD]
  rw [wordPoly_shiftLeft_one, wordPoly, Finset.sum_range_succ, mul_add, mul_ite, mul_zero, ← pow_succ', htop]

theorem wordPoly_highByte (b : Byte) : wordPoly (highByte b) = X ^ 8 * bitsPoly (bitsOf [b]) := by
  have hbytes : be16 (highByte b) = [b] ++ [0#8] := by
    have hhigh : (highByte b).extractLsb' 8 8 = b := by
      apply BitVec.eq_of_getLsbD_eq
      grind [highByte]
    have hlow : (highByte b).extractLsb' 0 8 = 0#8 := by
      apply BitVec.eq_of_getLsbD_eq
      grind [highByte]
    simp [be16, hhigh, hlow]
  have hzero : bitsPoly (bitsOf [0#8]) = 0 := by simp [bitsPoly, bitsOf, List.range_succ]
  rw [← bitsPoly_be16, hbytes, bitsPoly_bitsOf_append_singleton, hzero, add_zero, mul_comm]

/-- The residue class of a register value modulo the generator. -/
noncomputable def residue (c : Word16) : AdjoinRoot generator := AdjoinRoot.mk generator (wordPoly c)

theorem residue_xor (c d : Word16) : residue (c ^^^ d) = residue c + residue d := by
  rw [residue, wordPoly_xor, map_add, residue, residue]

theorem residue_mulX (c : Word16) : residue (mulX c) = AdjoinRoot.mk generator X * residue c := by
  have hpoly : wordPoly 0x1021#16 = generator + X ^ 16 := by
    have hbits : wordPoly 0x1021#16 = 1 + X ^ 5 + X ^ 12 := by simp [wordPoly, Finset.sum_range_succ]
    rw [hbits, generator]
    linear_combination -X ^ 16 * CharTwo.two_eq_zero (R := (ZMod 2)[X])
  rw [residue, residue, ← map_mul, X_mul_wordPoly]
  cases h : c.getMsbD 0
  · simp [mulX_of_not_msb h]
  · rw [mulX_of_msb h, wordPoly_xor, hpoly]
    simp

theorem residue_iterate_mulX (n : Nat) (c : Word16) :
    residue (mulX^[n] c) = AdjoinRoot.mk generator X ^ n * residue c := by
  induction n with
  | zero => simp
  | succ n ih => rw [Function.iterate_succ_apply', residue_mulX, ih, pow_succ', mul_assoc]

/-- The CRC and the message times X^16 are the same modulo the generator. -/
theorem residue_crc16 (bs : List Byte) :
    residue (crc16 CrcParams.source bs) = AdjoinRoot.mk generator (bitsPoly (bitsOf bs) * X ^ 16) := by
  induction bs using List.reverseRecOn with
  | nil => simp [crc16_source, residue, wordPoly, bitsOf, bitsPoly]
  | append_singleton bs b ih =>
    rw [crc16_source_append, List.foldl_cons, List.foldl_nil, crcStep_source, residue_iterate_mulX, residue_xor, ih,
      residue, wordPoly_highByte, bitsPoly_bitsOf_append_singleton, ← map_pow, ← map_add, ← map_mul]
    exact congrArg (AdjoinRoot.mk generator) (by ring)

/-- Settles O17: message times X^16 and CRC have one residue class modulo the generator. -/
theorem crcIsPolynomialRemainder : Obligations.CrcIsPolynomialRemainder := by
  intro bs
  rw [bitsPoly_be16]
  exact AdjoinRoot.mk_eq_mk.1 (residue_crc16 bs).symm

end Remainder

end Sys2Proof.Machine
end

section
/-! PROOFS. The statements of 42_tx_framer.md: FRAME.ENCODE (R121) and the shape of a frame (R122). -/

namespace Sys2Proof.Machine

/-! ### FRAME.ENCODE (R121) -/

/-- Settles O26: the operands are those of format P, and the operation is `sendBody` of the cid and the payload. -/
theorem frameEncodeEmitsFrame : Obligations.FrameEncodeEmitsFrame := by
  refine ⟨fun cid payload tail hlen => ?_, fun cid payload s hwire => ⟨fun hfits => ?_, fun hlong => ?_⟩⟩
  · have hop := decodeP_operandsP cid hlen tail
    rw [← decodeOp_opP] at hop
    simpa [operandsP] using hop
  · exact congrArg Host.Outcome.next (sendBody_source hwire hfits)
  · exact congrArg Host.Outcome.next (sendBody_oversized hlong)

/-! ### The shape of a frame (R122) -/

/-- The start marker and the length field of a frame with the markers of the source (30_encoding.md R60). -/
def sourceHeader (body : List Byte) : List Byte :=
  if body.length ≤ 255 then [0x02#8, BitVec.ofNat 8 body.length] else 0x03#8 :: be16 (BitVec.ofNat 16 body.length)

theorem sourceFrame_eq (body : List Byte) :
    sourceFrame body = sourceHeader body ++ (body ++ be16 (crc16 CrcParams.source body)) ++ [0x03#8] := by
  rw [sourceFrame, sourceHeader, ← List.append_assoc]

theorem sourceHeader_length (body : List Byte) :
    (sourceHeader body).length = if body.length ≤ 255 then 2 else 3 := by
  unfold sourceHeader
  split <;> rfl

theorem sourceFrame_length (body : List Byte) :
    (sourceFrame body).length = (sourceHeader body).length + body.length + 3 := by
  simp +arith [sourceFrame_eq]

theorem sourceFrame_head? (body : List Byte) :
    (sourceFrame body).head? = some 0x02#8 ∨ (sourceFrame body).head? = some 0x03#8 := by
  rw [sourceFrame_eq, sourceHeader]
  split
  case isTrue => exact .inl rfl
  case isFalse => exact .inr rfl

/-- What follows the header of a frame. -/
theorem sourceFrame_drop_header (body : List Byte) :
    (sourceFrame body).drop ((sourceFrame body).length - body.length - 3) =
      body ++ be16 (crc16 CrcParams.source body) ++ [0x03#8] := by
  have hheader : (sourceFrame body).length - body.length - 3 = (sourceHeader body).length := by
    rw [sourceFrame_length]
    omega
  rw [hheader, sourceFrame_eq, List.append_assoc, List.drop_left]

/-- With the source's wire constants, the frame `make_frame` answers is the one of R60. -/
theorem eq_sourceFrame_of_makeFrame {cfg : Config} (hwire : SourceWire cfg) {body f : List Byte}
    (h : makeFrame cfg body = .ok f) : f = sourceFrame body := by
  by_cases hlen : body.length ≤ cfg.maxLen
  · exact Except.ok.inj (h.symm.trans (makeFrame_source hwire hlen))
  · simp [makeFrame, Nat.not_le.1 hlen] at h

/-- Settles O27: header, body, CRC field and end marker in their places; the last clause is the CRC's residue (R102
item 4). -/
theorem frameShape : Obligations.FrameShape := by
  intro cfg body f hwire _ h
  obtain rfl := eq_sourceFrame_of_makeFrame hwire h
  have hcrcField : body.length + 2 = (body ++ be16 (crc16 CrcParams.source body)).length := by simp
  refine ⟨?length, sourceFrame_head? body, ?last, ?body, ?residue⟩
  case length =>
    rw [sourceFrame_length, sourceHeader_length]
    split <;> omega
  case last => rw [sourceFrame_eq, List.getLast?_concat]
  case body => rw [sourceFrame_drop_header, List.append_assoc, List.take_left]
  case residue =>
    rw [sourceFrame_drop_header, hcrcField, List.take_left]
    exact crcResidueIsZero body

end Sys2Proof.Machine
end

section
/-! PROOFS. The statements of 43_command_encoder.md: rounding to an integer (R142), the conversion of an argument (R140,
R143, R144, R147), and what the requests and the setting commands send (R146, R150 to R157). -/

namespace Sys2Proof

/-! ### Rounding to an integer (R142) -/

theorem unit64_eq : unit64 = 2 ^ 1074 := pow2_eq 1074

theorem roundToInt_eq_mirrorBy (t : TieRule) (p : Int) : roundToInt t p = mirrorBy p (roundMag t p.natAbs) := rfl

theorem roundToInt_mul_natCast (t : TieRule) (h : Int) {g : Nat} (hg : 0 < g) :
    roundToInt t (h * g) = mirrorBy h (roundMag t (h.natAbs * g)) := by
  have hneg : h * g < 0 ↔ h < 0 := by
    rw [mul_neg_iff]
    omega
  rw [roundToInt_eq_mirrorBy, Int.natAbs_mul, Int.natAbs_natCast]
  simp only [mirrorBy, hneg]

theorem roundMag_mul_unit64 (t : TieRule) (k : Nat) : roundMag t (k * unit64) = k := by
  have hu := unit64_pos
  simp [roundMag, hu, hu.ne]

theorem roundHalfAway_mul_unit64 (q : Int) : roundHalfAway (q * unit64) = q := by
  rw [roundHalfAway, roundToInt_mul_natCast _ _ unit64_pos, roundMag_mul_unit64, mirrorBy]
  omega

/-- With ties away, a magnitude goes at most half a unit away, and exactly half only upwards. -/
theorem roundMag_away_spec (m : Nat) :
    2 * ((m : Int) - (roundMag .awayFromZero m * unit64 : Nat)).natAbs ≤ unit64 ∧
    (2 * ((m : Int) - (roundMag .awayFromZero m * unit64 : Nat)).natAbs = unit64 →
      m < roundMag .awayFromZero m * unit64) := by
  have hdiv : unit64 * (m / unit64) + m % unit64 = m := Nat.div_add_mod m unit64
  have hmod : m % unit64 < unit64 := Nat.mod_lt _ unit64_pos
  simp only [roundMag, and_true]
  generalize m / unit64 = q at *
  generalize m % unit64 = rem at *
  generalize unit64 = u at *
  rw [mul_comm] at hdiv
  split
  · rw [add_mul, one_mul]
    omega
  · omega

/-- The two halves of R142 for an integer of either sign: the sign mirrors what happens to the magnitude. -/
theorem roundHalfAway_spec (p : Int) :
    2 * (p - roundHalfAway p * unit64).natAbs ≤ unit64 ∧
    (2 * (p - roundHalfAway p * unit64).natAbs = unit64 → p.natAbs < (roundHalfAway p * unit64).natAbs) := by
  have hmirror : mirrorBy p (roundHalfAway p * unit64) = (roundMag .awayFromZero p.natAbs * unit64 : Nat) := by
    rw [roundHalfAway, roundToInt_eq_mirrorBy]
    unfold mirrorBy
    split <;> simp
  rw [natAbs_sub_eq_mirrorBy, ← natAbs_mirrorBy p (roundHalfAway p * unit64), hmirror, Int.natAbs_natCast]
  exact roundMag_away_spec p.natAbs

/-- An odd number of halves goes up to the next integer, an even number is one already. -/
theorem roundMag_away_halves (h : Nat) : roundMag .awayFromZero (h * 2 ^ 1073) = (h + 1) / 2 := by
  have hunit : unit64 = 2 * 2 ^ 1073 := by rw [unit64_eq, pow_succ']
  have hpos : 0 < 2 ^ 1073 := by positivity
  simp only [roundMag, and_true]
  rw [hunit]
  generalize 2 ^ 1073 = g at *
  rw [Nat.mul_div_mul_right _ _ hpos, Nat.mul_mod_mul_right]
  rcases Nat.mod_two_eq_zero_or_one h with heven | hodd
  · rw [heven, if_neg (by omega)]
    omega
  · rw [hodd, if_pos (by omega)]
    omega

theorem roundHalfAway_halves (h : Int) : roundHalfAway (h * 2 ^ 1073) = mirrorBy h ((h.natAbs + 1) / 2 : Nat) := by
  have hcast : (2 : Int) ^ 1073 = (2 ^ 1073 : Nat) := by rw [Nat.cast_pow, Nat.cast_ofNat]
  rw [roundHalfAway, hcast, roundToInt_mul_natCast _ _ (by positivity), roundMag_away_halves]

/-- Settles O35. -/
theorem roundingIsNearestTiesAway : Obligations.RoundingIsNearestTiesAway := by
  constructor
  · intro p
    have hspec := roundHalfAway_spec p
    rwa [unit64_eq, Nat.cast_pow, Nat.cast_ofNat] at hspec
  · intro h q hq
    rw [roundHalfAway_halves]
    simp only [List.mem_cons, Prod.mk.injEq, List.not_mem_nil, or_false] at hq
    rcases hq with ⟨rfl, rfl⟩ | ⟨rfl, rfl⟩ | ⟨rfl, rfl⟩ | ⟨rfl, rfl⟩ | ⟨rfl, rfl⟩ <;> rfl

/-! ### Sign and size through the two roundings -/

theorem mirrorBy_neg {r w : Int} (h : r = 0 → w = 0) : mirrorBy (-r) w = -mirrorBy r w := by
  unfold mirrorBy
  split <;> split <;> omega

theorem roundMag_zero (t : TieRule) : roundMag t 0 = 0 := by
  simpa using roundMag_mul_unit64 t 0

theorem roundToInt_neg (t : TieRule) (p : Int) : roundToInt t (-p) = -roundToInt t p := by
  rw [roundToInt_eq_mirrorBy, roundToInt_eq_mirrorBy, Int.natAbs_neg, mirrorBy_neg]
  rintro rfl
  simp [roundMag_zero]

theorem roundToInt_natCast (t : TieRule) (n : Nat) : roundToInt t n = roundMag t n := by
  simp [roundToInt]

theorem roundToInt_mirrorBy (t : TieRule) (r : Int) (n : Nat) :
    roundToInt t (mirrorBy r n) = mirrorBy r (roundMag t n) := by
  unfold mirrorBy
  split
  · rw [roundToInt_neg, roundToInt_natCast]
  · rw [roundToInt_natCast]

theorem roundMag_away_le {m k : Nat} (h : m ≤ k * unit64) : roundMag .awayFromZero m ≤ k := by
  obtain ⟨hhalf, _⟩ := roundMag_away_spec m
  have hlt : roundMag .awayFromZero m * unit64 < (k + 1) * unit64 := by
    have := unit64_pos
    rw [add_mul, one_mul]
    omega
  exact Nat.lt_succ_iff.1 (Nat.lt_of_mul_lt_mul_right hlt)

theorem roundEvenAt_of_dvd {k n : Nat} (h : 2 ^ k ∣ n) : roundEvenAt k n = n := by
  simp [roundEvenAt, pow2_eq, Nat.mod_eq_zero_of_dvd h, Nat.div_mul_cancel h, (Nat.two_pow_pos k).ne]

theorem fl64_neg (r : Int) : fl64 (-r) = (fl64 r).map (- ·) := by
  by_cases h : r.natAbs < overflow64
  · rw [fl64_of_lt_overflow64 h, fl64_of_lt_overflow64 (by rwa [Int.natAbs_neg]), Int.natAbs_neg, mirrorBy_neg]
    · rfl
    · rintro rfl
      simp [roundEvenAt_of_dvd]
  · rw [(fl64_eq_none_iff r).2 (Nat.not_lt.1 h), (fl64_eq_none_iff (-r)).2 (by rw [Int.natAbs_neg]; omega)]
    rfl

/-! ### `fl64` at and below an integer of 53 bits -/

theorem lt_overflow64_of_le {n k : Nat} (hk : k < 2 ^ 53) (h : n ≤ k * unit64) : n < overflow64 := by
  have hlt : k < pow2 1024 - pow2 970 := by
    have hpos : 0 < 2 ^ 970 := by positivity
    rw [pow2_eq, pow2_eq, show 1024 = 970 + 54 from rfl, pow_add]
    generalize 2 ^ 970 = g at *
    omega
  exact h.trans_lt (Nat.mul_lt_mul_of_pos_right hlt unit64_pos)

theorem dropBits64_le_of_lt {n d : Nat} (h : n < 2 ^ (53 + d)) : dropBits64 n ≤ d := by
  rcases Nat.eq_zero_or_pos n with rfl | hn
  · simp [dropBits64]
  · have := (Nat.log2_lt hn.ne').2 h
    unfold dropBits64
    omega

/-- An integer of 53 bits keeps all its bits. -/
theorem roundEvenAt_mul_unit64 {k : Nat} (hk : k < 2 ^ 53) :
    roundEvenAt (dropBits64 (k * unit64)) (k * unit64) = k * unit64 := by
  refine roundEvenAt_of_dvd ((pow_dvd_pow 2 (dropBits64_le_of_lt (d := 1074) ?_)).trans ?_)
  · rw [pow_add, ← unit64_eq]
    exact Nat.mul_lt_mul_of_pos_right hk unit64_pos
  · rw [← unit64_eq]
    exact dvd_mul_left _ _

theorem fl64_mul_unit64 {q : Int} (hq : q.natAbs < 2 ^ 53) : fl64 (q * unit64) = some (q * unit64) := by
  have habs : (q * unit64).natAbs = q.natAbs * unit64 := by rw [Int.natAbs_mul, Int.natAbs_natCast]
  rw [fl64_of_lt_overflow64 (lt_overflow64_of_le hq habs.le), habs, roundEvenAt_mul_unit64 hq, ← habs]
  unfold mirrorBy
  congr 1
  omega

/-- Rounding does not pass an integer of 53 bits, because that integer is itself a binary64 value. -/
theorem fl64_of_natAbs_le {r : Int} {k : Nat} (hk : k < 2 ^ 53) (h : r.natAbs ≤ k * unit64) :
    ∃ R : Nat, fl64 r = some (mirrorBy r R) ∧ R ≤ k * unit64 := by
  have hlt := lt_overflow64_of_le hk h
  refine ⟨_, fl64_of_lt_overflow64 hlt, ?_⟩
  have hbound := isRounded64_roundEvenAt (lt_overflow64_of_le hk le_rfl)
  rw [roundEvenAt_mul_unit64 hk] at hbound
  obtain ⟨y, _, _, hy⟩ := hbound.representable false
  have := (isRounded64_roundEvenAt hlt).nearest y (k * unit64 : Nat) (by rw [hy, Int.natAbs_natCast])
  omega

/-! ### The sign bit of a pattern -/

/-- The sign bit of a binary64 pattern, alone. -/
def signBit64 : Word64 := 0x8000000000000000#64

theorem exp64_xor_signBit64 (x : Word64) : exp64 (x ^^^ signBit64) = exp64 x := by
  have hzero : signBit64.extractLsb' 52 11 = 0#11 := by decide
  rw [exp64, BitVec.extractLsb'_xor, hzero, BitVec.xor_zero, exp64]

theorem frac64_xor_signBit64 (x : Word64) : frac64 (x ^^^ signBit64) = frac64 x := by
  have hzero : signBit64.extractLsb' 0 52 = 0#52 := by decide
  rw [frac64, BitVec.extractLsb'_xor, hzero, BitVec.xor_zero, frac64]

theorem sign64_xor_signBit64 (x : Word64) : sign64 (x ^^^ signBit64) = !sign64 x := by
  have hone : signBit64.getMsbD 0 = true := by decide
  rw [sign64, BitVec.getMsbD_xor, hone, Bool.xor_true, sign64]

theorem finite64_xor_signBit64 (x : Word64) : finite64 (x ^^^ signBit64) = finite64 x := by
  rw [finite64, exp64_xor_signBit64, finite64]

theorem val64_xor_signBit64 (x : Word64) : val64 (x ^^^ signBit64) = -val64 x := by
  have hmag : mag64 (x ^^^ signBit64) = mag64 x := by
    rw [mag64, exp64_xor_signBit64, frac64_xor_signBit64, mag64]
  rw [val64, val64, hmag, sign64_xor_signBit64]
  cases sign64 x <;> simp

end Sys2Proof

namespace Sys2Proof.Machine

/-! ### `fx_encode`, one equation for each outcome (R140, R143, R144) -/

section FxEncode
variable {m : ProductMode} {t : TieRule} {p : CmdParams} {x : Word64}

theorem fxEncode_of_not_finite (h : finite64 x = false) : fxEncode m t p x = .error .argNotFinite := by
  simp [fxEncode, h]

theorem fxEncode_of_not_inDomain (hfin : finite64 x = true) (hdom : inDomain p.domain (val64 x) = false) :
    fxEncode m t p x = .error .argRange := by
  simp [fxEncode, hfin, hdom]

theorem fxEncode_of_product_infinite (hfin : finite64 x = true) (hdom : inDomain p.domain (val64 x) = true)
    (hprod : fl64 (val64 x * p.scale) = none) : fxEncode .binary64 t p x = .error .argRange := by
  simp [fxEncode, hfin, hdom, scaledProduct, hprod]

theorem fxEncode_of_product {r : Int} (hfin : finite64 x = true) (hdom : inDomain p.domain (val64 x) = true)
    (hprod : fl64 (val64 x * p.scale) = some r) : fxEncode .binary64 .awayFromZero p x =
      if inWidth p.width (roundHalfAway r) then .ok (roundHalfAway r) else .error .argRange := by
  simp only [fxEncode, hfin, hdom, scaledProduct, hprod, Bool.true_eq_false, if_false]
  rfl

end FxEncode

theorem intCast_le_realValue (lo : Int) (x : Word64) : (lo : ℚ) ≤ realValue x ↔ lo * unit64 ≤ val64 x := by
  have hu : (0 : ℚ) < unit64 := by exact_mod_cast unit64_pos
  rw [realValue, le_div_iff₀ hu]
  exact_mod_cast Iff.rfl

theorem realValue_le_intCast (hi : Int) (x : Word64) : realValue x ≤ (hi : ℚ) ↔ val64 x ≤ hi * unit64 := by
  have hu : (0 : ℚ) < unit64 := by exact_mod_cast unit64_pos
  rw [realValue, div_le_iff₀ hu]
  exact_mod_cast Iff.rfl

/-- The domain of R143 in terms of the argument's real value. -/
theorem inDomain_val64_iff (d : Domain) (x : Word64) : inDomain d (val64 x) = true ↔ d = .allFinite ∨
    ∃ lo hi : Int, d = .closed lo hi ∧ (lo : ℚ) ≤ realValue x ∧ realValue x ≤ (hi : ℚ) := by
  cases d with
  | allFinite => simp [inDomain]
  | closed lo hi =>
    rw [inDomain, Bool.and_eq_true, decide_eq_true_iff, decide_eq_true_iff, ← intCast_le_realValue,
      ← realValue_le_intCast]
    constructor
    · exact fun h => .inr ⟨lo, hi, rfl, h⟩
    · rintro (h | ⟨lo', hi', h, hbounds⟩)
      · cases h
      · cases h
        exact hbounds

/-- Settles O36: the equations of `fx_encode`, the domain read through the argument's real value. -/
theorem fxEncodeFollowsItsChecks : Obligations.FxEncodeFollowsItsChecks := by
  intro p x
  simp only [← inDomain_val64_iff, Bool.not_eq_true]
  refine ⟨fxEncode_of_not_finite, fxEncode_of_not_inDomain, fun hfin hdom hprod => ?_, fun r hfin hdom hprod => ?_⟩
  · exact fxEncode_of_product_infinite hfin hdom hprod
  · rw [fxEncode_of_product hfin hdom hprod]
    refine ⟨fun hout => if_neg ?_, fun hlo hhi => if_pos ((inWidth_iff _ _).2 ⟨hlo, hhi⟩)⟩
    rw [inWidth_iff]
    rintro ⟨hlo, hhi⟩
    exact hout.elim hlo.not_gt hhi.not_gt

/-! ### The default duty and servo parameters (R144) -/

/-- An argument of magnitude at most 1 gives an integer of magnitude at most the scale, of the argument's sign. -/
theorem roundHalfAway_product_of_le_one {x : Word64} {scale : Nat} (hscale : scale < 2 ^ 53)
    (hx : (val64 x).natAbs ≤ unit64) : ∃ (r : Int) (n : Nat), fl64 (val64 x * scale) = some r ∧
      roundHalfAway r = mirrorBy (val64 x * scale) n ∧ n ≤ scale := by
  have habs : (val64 x * scale).natAbs ≤ scale * unit64 := by
    rw [Int.natAbs_mul, Int.natAbs_natCast, mul_comm]
    exact Nat.mul_le_mul_left _ hx
  obtain ⟨R, hfl, hR⟩ := fl64_of_natAbs_le hscale habs
  exact ⟨_, _, hfl, roundToInt_mirrorBy _ _ R, roundMag_away_le hR⟩

/-- Where every integer up to the scale fits the width, an argument of magnitude at most 1 never fails that check. -/
theorem fxEncode_of_le_one {p : CmdParams} {x : Word64} (hscale : p.scale < 2 ^ 53)
    (hwidth : ∀ q : Int, q.natAbs ≤ p.scale → inWidth p.width q = true) (hfin : finite64 x = true)
    (hdom : inDomain p.domain (val64 x) = true) (hx : (val64 x).natAbs ≤ unit64) :
    ∃ n : Nat, fxEncode .binary64 .awayFromZero p x = .ok (mirrorBy (val64 x * p.scale) n) ∧ n ≤ p.scale := by
  obtain ⟨r, n, hfl, hround, hn⟩ := roundHalfAway_product_of_le_one hscale hx
  have hfits : inWidth p.width (mirrorBy (val64 x * p.scale) n) = true :=
    hwidth _ (by rwa [natAbs_mirrorBy, Int.natAbs_natCast])
  refine ⟨n, ?_, hn⟩
  rw [← hround] at hfits ⊢
  rw [fxEncode_of_product hfin hdom hfl, if_pos hfits]

/-- Settles O37: the product is at most the scale, which is a binary64 value and an integer, so that neither rounding
passes it. -/
theorem dutyAndServoAlwaysFit : Obligations.DutyAndServoAlwaysFit := by
  intro x hfin
  have hunit (hlo : -1 ≤ realValue x) (hhi : realValue x ≤ 1) : (val64 x).natAbs ≤ unit64 := by
    have := (intCast_le_realValue (-1) x).1 (by exact_mod_cast hlo)
    have := (realValue_le_intCast 1 x).1 (by exact_mod_cast hhi)
    omega
  refine ⟨fun hlo hhi => ?duty, fun hlo hhi => ?servo⟩
  case duty =>
    have hdom : inDomain Config.default.duty.domain (val64 x) = true :=
      (inDomain_val64_iff _ _).2 (.inr ⟨-1, 1, rfl, by exact_mod_cast hlo, by exact_mod_cast hhi⟩)
    have hwidth (q : Int) (hq : q.natAbs ≤ 100000) : inWidth 4 q = true := by
      rw [inWidth_iff]
      omega
    obtain ⟨n, henc, hn⟩ := fxEncode_of_le_one (by decide) hwidth hfin hdom (hunit hlo hhi)
    have hle : (mirrorBy (val64 x * Config.default.duty.scale) n).natAbs ≤ 100000 := by
      rwa [natAbs_mirrorBy, Int.natAbs_natCast]
    exact ⟨_, henc, by omega, by omega⟩
  case servo =>
    have hdom : inDomain Config.default.servo.domain (val64 x) = true :=
      (inDomain_val64_iff _ _).2 (.inr ⟨0, 1, rfl, by exact_mod_cast hlo, by exact_mod_cast hhi⟩)
    have hwidth (q : Int) (hq : q.natAbs ≤ 1000) : inWidth 2 q = true := by
      rw [inWidth_iff]
      omega
    obtain ⟨n, henc, hn⟩ := fxEncode_of_le_one (by decide) hwidth hfin hdom (hunit (by linarith) hhi)
    have hnonneg : 0 ≤ val64 x := by
      simpa using (intCast_le_realValue 0 x).1 (by exact_mod_cast hlo)
    have hpos : mirrorBy (val64 x * Config.default.servo.scale) n = n :=
      if_neg (not_lt.2 (mul_nonneg hnonneg (Int.natCast_nonneg _)))
    rw [hpos] at henc
    exact ⟨n, henc, Int.natCast_nonneg n, Int.ofNat_le.2 hn⟩

/-! ### Exactness and error bound (R147) -/

theorem realValue_mul_eq_intCast_iff {x : Word64} {scale : Nat} {q : Int} :
    realValue x * scale = q ↔ val64 x * scale = q * unit64 := by
  have hu : (unit64 : ℚ) ≠ 0 := by exact_mod_cast unit64_pos.ne'
  rw [realValue, div_mul_eq_mul_div, div_eq_iff hu]
  exact_mod_cast Iff.rfl

theorem natAbs_lt_of_inWidth {p : CmdParams} (hp : p.ok = true) {q : Int} (hq : inWidth p.width q = true) :
    q.natAbs < 2 ^ 53 := by
  obtain ⟨_, hwidth⟩ := (cmdParams_ok_iff p).1 hp
  rw [inWidth_iff] at hq
  rcases hwidth with h | h <;> rw [h] at hq <;> omega

theorem abs_div_unit_sub_roundHalfAway_le (r : Int) : |(r : ℚ) / 2 ^ 1074 - roundHalfAway r| ≤ 1 / 2 := by
  have hu : (0 : ℚ) < unit64 := by exact_mod_cast unit64_pos
  have hunit : (2 : ℚ) ^ 1074 = unit64 := by rw [unit64_eq, Nat.cast_pow, Nat.cast_ofNat]
  have hhalf : 2 * |(r : ℚ) - roundHalfAway r * unit64| ≤ unit64 := by
    have h := (roundHalfAway_spec r).1
    rw [← Nat.cast_le (α := ℚ)] at h
    simpa using h
  rw [hunit, div_sub' hu.ne', abs_div, abs_of_pos hu, div_le_iff₀ hu, mul_comm (unit64 : ℚ)]
  linarith

/-- Settles O38: an integer of the width is a binary64 value, so nothing is rounded; in general the rounding to an
integer adds at most 1/2 to the product's own error. -/
theorem fixedPointRoundTrip : Obligations.FixedPointRoundTrip := by
  intro p x q hp hfin
  have hscale : (0 : ℚ) < p.scale := by exact_mod_cast ((cmdParams_ok_iff p).1 hp).1
  refine ⟨fun hdom hprod hwidth => ⟨?encode, ?decode⟩, fun r hq hr => ?bound⟩
  case encode =>
    have hfl : fl64 (val64 x * p.scale) = some (q * unit64) := by
      rw [realValue_mul_eq_intCast_iff.1 hprod]
      exact fl64_mul_unit64 (natAbs_lt_of_inWidth hp hwidth)
    rw [fxEncode_of_product hfin hdom hfl, roundHalfAway_mul_unit64, if_pos hwidth]
  case decode => rw [fxDecode, ← hprod, mul_div_cancel_right₀ _ hscale.ne']
  case bound =>
    obtain ⟨_, _, _, r', hr', rfl⟩ := fxEncode_ok hq
    obtain rfl : r = r' := Option.some.inj (hr.symm.trans hr')
    have herr : fxDecode (roundHalfAway r) p.scale - realValue x =
        (roundHalfAway r - realValue x * p.scale) / p.scale := by
      rw [fxDecode]
      field_simp
    have htri := abs_sub_le (roundHalfAway r : ℚ) ((r : ℚ) / 2 ^ 1074) (realValue x * p.scale)
    have hround := abs_div_unit_sub_roundHalfAway_le r
    rw [abs_sub_comm] at hround
    change |fxDecode (roundHalfAway r) p.scale - realValue x| ≤ _
    rw [herr, abs_div, abs_of_pos hscale]
    gcongr
    linarith

/-! ### Symmetry in sign (92_eei_decisions.md D8) -/

/-- Settles O39: the value, the product's rounding and the rounding to an integer are each odd. -/
theorem negatedArgumentEncodesNegated : Obligations.NegatedArgumentEncodesNegated := by
  intro p x q hdomain hq hwidth
  obtain ⟨hfin, _, _, r, hr, rfl⟩ := fxEncode_ok hq
  have hdom : inDomain p.domain (val64 (x ^^^ signBit64)) = true := by rw [hdomain]; rfl
  have hprod : fl64 (val64 (x ^^^ signBit64) * p.scale) = some (-r) := by
    have hfl : fl64 (val64 x * p.scale) = some r := hr
    rw [val64_xor_signBit64, neg_mul, fl64_neg, hfl]
    rfl
  rw [← roundToInt_neg] at hwidth ⊢
  exact (fxEncode_of_product ((finite64_xor_signBit64 x).trans hfin) hdom hprod).trans (if_pos hwidth)

/-! ### What the commands send (R146, R150 to R157) -/

theorem sendsScaled_of_exec {mk : Word64 → Instr} {prm : Config → CmdParams}
    (hexec : ∀ x s, exec (mk x) s = .next (cmdSet (prm s.cfg) x s)) : SendsScaled mk prm := by
  rintro x s p hwire ⟨hproduct, htie⟩ hfin hdom hfl hwidth hlen
  have hq : fxEncode s.cfg.product s.cfg.tie (prm s.cfg) x = .ok (roundHalfAway p) := by
    rw [hproduct, htie, fxEncode_of_product hfin hdom hfl, if_pos hwidth]
  have hbody : (commandBody (prm s.cfg) (roundHalfAway p)).length ≤ s.cfg.maxLen := by
    rwa [commandBody, List.length_cons, Nat.add_comm]
  rw [hexec, cmdSet_of_fxEncode hq, sendBody_source hwire hbody]
  rfl

/-- Settles O29: each setting command is `cmd_set` of its own parameters. -/
theorem settingCommandsSend : Obligations.SettingCommandsSend := by
  refine ⟨?_, ?_, ?_, ?_, ?_, ?_⟩
  all_goals exact sendsScaled_of_exec fun _ _ => rfl

theorem exec_cmdFwVersion (s : State) : exec .cmdFwVersion s = exec .bodyFwVersion s := rfl

theorem exec_cmdGetValues (s : State) : exec .cmdGetValues s = exec .bodyGetValues s := rfl

/-- Settles O28: a request does what the body row of its id alone does. -/
theorem requestsSendTheirId : Obligations.RequestsSendTheirId := by
  obtain ⟨hrows, _⟩ := bodyRowsSend
  refine ⟨fun tail => ⟨?_, ?_⟩, fun s hwire => ?_⟩
  · exact decodeOp_opsN (0x20#8, .cmdFwVersion) (by simp [opsN]) tail
  · exact decodeOp_opsN (0x21#8, .cmdGetValues) (by simp [opsN]) tail
  · rw [exec_cmdFwVersion, exec_cmdGetValues]
    exact hrows s hwire

end Sys2Proof.Machine
end

section
/-! PROOFS. The statements of 44_rx_deframer.md: each receive state (R171 to R176), a whole frame (R178 to R180) and the
return to `SEEKING` (R181, R182). -/

namespace Sys2Proof.Machine

/-! ### RX.BYTE and RX.FEED -/

theorem exec_rxByte (b : Byte) (s : State) : exec (.rxByte b) s = .next (rxStep s b) := rfl

theorem feed_eq (bs : List Byte) (s : State) : feed bs s = .next (rxFeed bs s) := runInstrs_rxByte bs s

/-- Settles O40: every transition posts at most one event and leaves the host side alone. -/
theorem rxByteIsTotal : Obligations.RxByteIsTotal := by
  intro b s
  refine ⟨rxStep s b, exec_rxByte b s, ?_, rxStep_lineRes s b, rxFeed_sameHostSide [b] s, rxStep_cfg s b,
    rxStep_input s b⟩
  rcases rxStep_posts s b with h | ⟨e, h, _⟩
  · exact .inl h
  · exact .inr ⟨e, h⟩

/-! ### `SEEKING` (R172) -/

theorem rxStep_of_seeking {s : State} (hframing : s.cfg.framing = FramingParams.source) (hst : s.rxState = .seeking)
    (b : Byte) : rxStep s b =
      if b = 0x02#8 then
        { s with rxForm := .short, rxLen := 0#16, rxCnt := 0#16, rxState := .readLen,
                 lineRes := s.lineRes ++ [okResult] }
      else if b = 0x03#8 then
        { s with rxForm := .long, rxLen := 0#16, rxCnt := 0#16, rxState := .readLen,
                 lineRes := s.lineRes ++ [okResult] }
      else { s with lineRes := s.lineRes ++ [okResult] } := by
  simp only [rxStep, rxTransition, hst, rxSeeking, hframing, FramingParams.source]
  split_ifs
  · rfl
  · rfl
  · rw [State.lineResult, hst]
    rfl

/-- Settles O41: the three cases of R172. -/
theorem rxSeekingTakesStartMarkers : Obligations.RxSeekingTakesStartMarkers := by
  intro b s hframing hst
  rw [exec_rxByte, rxStep_of_seeking hframing hst]

/-- Settles O46: a step that posts returns to `SEEKING`; from `SEEKING` the three cases of R172. -/
theorem rxErrorsReturnToSeeking : Obligations.RxErrorsReturnToSeeking := by
  rintro b s t hframing hexec
  obtain rfl : rxStep s b = t := Host.Outcome.next.inj hexec
  refine ⟨fun hposted => ?_, fun hst => ?_⟩
  · rcases rxStep_posts s b with hnone | ⟨_, _, hseek⟩
    · exact absurd hnone hposted
    · exact hseek
  · rw [rxStep_of_seeking hframing hst]
    split_ifs with hshort hlong
    · simp [hshort]
    · simp [hlong]
    · simp [hst, hshort, hlong]

/-! ### `READ_LEN` (R173) -/

/-- A byte as the high byte of a register. -/
theorem highByte_eq_ofNat (b : Byte) : highByte b = BitVec.ofNat 16 (256 * b.toNat) := by
  have hb := b.isLt
  apply BitVec.eq_of_toNat_eq
  simp [highByte, Nat.shiftLeft_eq]
  omega

/-- A byte put below a register whose low byte is zero. -/
theorem or_byte_of_lowByteZero {w : Word16} (h : lowByteZero w = true) (b : Byte) :
    w.toNat + b.toNat < 65536 ∧ w ||| b.zeroExtend 16 = BitVec.ofNat 16 (w.toNat + b.toNat) := by
  have hlow : w.toNat % 256 = 0 := by
    simpa [lowByteZero] using congrArg BitVec.toNat (eq_of_beq h)
  have hw := w.isLt
  have hb := b.isLt
  have hdisjoint : w &&& b.zeroExtend 16 = 0#16 := by
    apply BitVec.eq_of_getLsbD_eq
    intro i hi
    have hbit := congrArg (BitVec.getLsbD · i) (eq_of_beq h)
    grind
  refine ⟨by omega, ?_⟩
  rw [← BitVec.add_eq_or_of_and_eq_zero _ _ hdisjoint]
  apply BitVec.eq_of_toNat_eq
  simp [Nat.mod_eq_of_lt (show b.toNat < 65536 by omega)]

/-- The long form's first length byte. -/
theorem rxStep_of_readLen_first {s : State} (hst : s.rxState = .readLen) (hform : s.rxForm = .long)
    (hcnt : s.rxCnt = 0#16) (b : Byte) :
    rxStep s b = { s with rxLen := highByte b, rxCnt := 1#16, lineRes := s.lineRes ++ [okResult] } := by
  simp only [rxStep, rxTransition, hst, rxReadLen, hform, hcnt, if_true]
  rfl

/-- The byte b completes the length field, and the declared length is n (44_rx_deframer.md R173). -/
def CompletesLength (s : State) (b : Byte) (n : Nat) : Prop :=
  (s.rxForm = .short ∧ n = b.toNat) ∨ (s.rxForm = .long ∧ s.rxCnt = 1#16 ∧ n = s.rxLen.toNat + b.toNat)

theorem rxInv_readLen_iff {s : State} (hst : s.rxState = .readLen) : s.rxInv = true ↔
    (s.rxForm = .short ∧ s.rxCnt = 0#16) ∨ (s.rxForm = .long ∧ s.rxCnt = 0#16) ∨
      (s.rxForm = .long ∧ s.rxCnt = 1#16 ∧ lowByteZero s.rxLen = true) := by
  simp only [State.rxInv, hst]
  grind

theorem rxStep_of_completesLength {s : State} {b : Byte} {n : Nat} (hinv : s.rxInv = true) (hst : s.rxState = .readLen)
    (hn : CompletesLength s b n) : n < 65536 ∧ rxStep s b = (rxLengthDone (BitVec.ofNat 16 n) s).lineResult := by
  rcases hn with ⟨hform, rfl⟩ | ⟨hform, hcnt, rfl⟩
  · refine ⟨b.isLt.trans (by decide), ?_⟩
    simp only [rxStep, rxTransition, hst, rxReadLen, hform, BitVec.ofNat_toNat]
  · have hlow : lowByteZero s.rxLen = true := by simpa [rxInv_readLen_iff hst, hform, hcnt] using hinv
    obtain ⟨hlt, hor⟩ := or_byte_of_lowByteZero hlow b
    refine ⟨hlt, ?_⟩
    simp only [rxStep, rxTransition, hst, rxReadLen, hform, hcnt, hor]
    rfl

/-- A declared length above `MAX_LEN`. -/
theorem rxStep_of_length_oversized {s : State} {b : Byte} {n : Nat} (hinv : s.rxInv = true)
    (hst : s.rxState = .readLen) (hn : CompletesLength s b n) (hmax : s.cfg.maxLen < n) :
    rxStep s b = { s with rxLen := BitVec.ofNat 16 n, rxCnt := 0#16, rxState := .seeking,
                          rxEvt := s.rxEvt ++ [.oversizedFrame], lineRes := s.lineRes ++ [okResult] } := by
  obtain ⟨hlt, hstep⟩ := rxStep_of_completesLength hinv hst hn
  rw [hstep, rxLengthDone, BitVec.toNat_ofNat, Nat.mod_eq_of_lt hlt, if_pos hmax]
  rfl

/-- A declared length within `MAX_LEN`: the body follows, or the CRC field where the body is empty. -/
theorem rxStep_of_length_admitted {s : State} {b : Byte} {n : Nat} (hinv : s.rxInv = true)
    (hst : s.rxState = .readLen) (hn : CompletesLength s b n) (hmax : n ≤ s.cfg.maxLen) :
    rxStep s b = { s with rxLen := BitVec.ofNat 16 n, rxCnt := 0#16, rxBody := [],
                          rxState := if n = 0 then .readCrc else .readBody, lineRes := s.lineRes ++ [okResult] } := by
  obtain ⟨hlt, hstep⟩ := rxStep_of_completesLength hinv hst hn
  have hzero : BitVec.ofNat 16 n = 0#16 ↔ n = 0 := by
    rw [← BitVec.toNat_inj, BitVec.toNat_ofNat, Nat.mod_eq_of_lt hlt, BitVec.toNat_zero]
  rw [hstep, rxLengthDone, BitVec.toNat_ofNat, Nat.mod_eq_of_lt hlt, if_neg (Nat.not_lt.2 hmax)]
  simp only [hzero]
  split_ifs <;> rfl

/-- Settles O42: the first byte of the long form, and the byte that completes the field. -/
theorem rxReadLenAccumulatesLength : Obligations.RxReadLenAccumulatesLength := by
  intro b s hinv hst
  refine ⟨fun hform hcnt => ?_, fun n hn => ⟨fun hmax => ?_, fun hmax hzero => ?_, fun hmax hne => ?_⟩⟩
  · rw [exec_rxByte, rxStep_of_readLen_first hst hform hcnt, highByte_eq_ofNat]
  · rw [exec_rxByte, rxStep_of_length_oversized hinv hst hn hmax]
  · subst hzero
    rw [exec_rxByte, rxStep_of_length_admitted hinv hst hn hmax, if_pos rfl]
  · rw [exec_rxByte, rxStep_of_length_admitted hinv hst hn hmax, if_neg hne]

/-! ### `READ_BODY` (R174) -/

theorem rxInv_readBody_iff {s : State} (hst : s.rxState = .readBody) : s.rxInv = true ↔
    s.rxLen.toNat ≤ s.cfg.maxLen ∧ s.rxCnt.toNat = s.rxBody.length ∧ s.rxBody.length < s.rxLen.toNat := by
  simp only [State.rxInv, hst, Bool.and_eq_true, decide_eq_true_eq]
  omega

theorem rxStep_of_readBody {s : State} (hinv : s.rxInv = true) (hst : s.rxState = .readBody) (b : Byte) :
    rxStep s b =
      if s.rxBody.length + 1 = s.rxLen.toNat then
        { s with rxBody := s.rxBody ++ [b], rxCnt := 0#16, rxState := .readCrc, lineRes := s.lineRes ++ [okResult] }
      else
        { s with rxBody := s.rxBody ++ [b], rxCnt := BitVec.ofNat 16 (s.rxBody.length + 1),
                 lineRes := s.lineRes ++ [okResult] } := by
  obtain ⟨_, hcnt, hlt⟩ := (rxInv_readBody_iff hst).1 hinv
  have hlen := s.rxLen.isLt
  have hnext : s.rxCnt + 1#16 = BitVec.ofNat 16 (s.rxBody.length + 1) := by
    rw [← hcnt, ← BitVec.ofNat_add_ofNat, BitVec.ofNat_toNat, BitVec.setWidth_eq]
  have hfull : BitVec.ofNat 16 (s.rxBody.length + 1) = s.rxLen ↔ s.rxBody.length + 1 = s.rxLen.toNat := by
    rw [← BitVec.toNat_inj, BitVec.toNat_ofNat, Nat.mod_eq_of_lt (by omega)]
  simp only [rxStep, rxTransition, hst, rxReadBody, hnext, hfull]
  split_ifs <;> rfl

/-- Settles O43: under the invariant `rx_cnt` is the fill count, so the comparison with `rx_len` does not wrap. -/
theorem rxReadBodyAppendsByte : Obligations.RxReadBodyAppendsByte := by
  intro b s hinv hst
  rw [exec_rxByte, rxStep_of_readBody hinv hst]

/-! ### `READ_CRC` (R175) -/

theorem rxStep_of_readCrc_first {s : State} (hst : s.rxState = .readCrc) (hcnt : s.rxCnt = 0#16) (b : Byte) :
    rxStep s b = { s with rxCrc := highByte b, rxCnt := 1#16, lineRes := s.lineRes ++ [okResult] } := by
  simp only [rxStep, rxTransition, hst, rxReadCrc, hcnt, if_true]
  rfl

theorem rxStep_of_readCrc_last {s : State} (hst : s.rxState = .readCrc) (hcnt : s.rxCnt = 1#16) (b : Byte) :
    rxStep s b = { s with rxCrc := s.rxCrc ||| b.zeroExtend 16, rxCnt := 0#16, rxState := .readEnd,
                          lineRes := s.lineRes ++ [okResult] } := by
  simp only [rxStep, rxTransition, hst, rxReadCrc, hcnt]
  rfl

theorem rxInv_readCrc_iff {s : State} (hst : s.rxState = .readCrc) : s.rxInv = true ↔
    s.rxBody.length = s.rxLen.toNat ∧ s.rxLen.toNat ≤ s.cfg.maxLen ∧
      (s.rxCnt = 0#16 ∨ (s.rxCnt = 1#16 ∧ lowByteZero s.rxCrc = true)) := by
  simp only [State.rxInv, hst]
  grind

/-- Settles O44: under the invariant the first byte left the low byte of `rx_crc` zero. -/
theorem rxReadCrcTakesTwoBytes : Obligations.RxReadCrcTakesTwoBytes := by
  intro b s hinv hst
  refine ⟨fun hcnt => ?_, fun hcnt => ?_⟩
  · rw [exec_rxByte, rxStep_of_readCrc_first hst hcnt, highByte_eq_ofNat]
  · obtain ⟨_, _, hfield⟩ := (rxInv_readCrc_iff hst).1 hinv
    have hlow : lowByteZero s.rxCrc = true := by simpa [hcnt] using hfield
    obtain ⟨_, hor⟩ := or_byte_of_lowByteZero hlow b
    rw [exec_rxByte, rxStep_of_readCrc_last hst hcnt, hor]

/-! ### `READ_END` (R176) -/

theorem rxStep_of_readEnd {s : State} (hwire : SourceWire s.cfg) (hst : s.rxState = .readEnd) (b : Byte) :
    rxStep s b = { s with rxState := .seeking, rxEvt := s.rxEvt ++ [frameEvent s.rxBody s.rxCrc b],
                          lineRes := s.lineRes ++ [okResult] } := by
  obtain ⟨hframing, hcrc⟩ := hwire
  simp only [rxStep, rxTransition, hst, rxReadEnd, hframing, hcrc, crcOk, beq_iff_eq]
  rfl

/-- Settles O45: the tests of `READ_END` are those of the event. -/
theorem rxReadEndPostsOneEvent : Obligations.RxReadEndPostsOneEvent := by
  intro b s hwire hst
  rw [exec_rxByte, rxStep_of_readEnd hwire hst]

/-! ### A whole frame from `SEEKING` (R178) -/

/-- `s` after k bytes of a frame, the last of them the end of the length field, which declares n body bytes. -/
def lengthTaken (s : State) (form : RxForm) (n k : Nat) : State :=
  { s with
    rxState := if n = 0 then .readCrc else .readBody, rxForm := form, rxLen := BitVec.ofNat 16 n, rxCnt := 0#16,
    rxBody := [], lineRes := s.lineRes ++ List.replicate k okResult }

/-- `s` after k bytes of a frame, all but the end marker. -/
def awaitingEnd (s : State) (form : RxForm) (body : List Byte) (crc : Word16) (k : Nat) : State :=
  { s with
    rxState := .readEnd, rxForm := form, rxLen := BitVec.ofNat 16 body.length, rxCnt := 0#16, rxBody := body,
    rxCrc := crc, lineRes := s.lineRes ++ List.replicate k okResult }

/-- `s` after the start marker of a frame. -/
def lengthAwaited (s : State) (form : RxForm) : State :=
  { s with rxForm := form, rxLen := 0#16, rxCnt := 0#16, rxState := .readLen, lineRes := s.lineRes ++ [okResult] }

theorem lengthAwaited_rxInv (s : State) (form : RxForm) : (lengthAwaited s form).rxInv = true := by
  cases form <;> rfl

theorem rxStep_startShort {s : State} (hframing : s.cfg.framing = FramingParams.source) (hst : s.rxState = .seeking) :
    rxStep s 0x02#8 = lengthAwaited s .short := by
  rw [rxStep_of_seeking hframing hst, if_pos rfl, lengthAwaited]

theorem rxStep_startLong {s : State} (hframing : s.cfg.framing = FramingParams.source) (hst : s.rxState = .seeking) :
    rxStep s 0x03#8 = lengthAwaited s .long := by
  rw [rxStep_of_seeking hframing hst, if_neg (by decide), if_pos rfl, lengthAwaited]

theorem rxFeed_shortHeader {s : State} (hframing : s.cfg.framing = FramingParams.source) (hst : s.rxState = .seeking)
    {n : Nat} (hmax : n ≤ s.cfg.maxLen) (hn : n ≤ 255) :
    rxFeed [0x02#8, BitVec.ofNat 8 n] s = lengthTaken s .short n 2 := by
  have hfield : CompletesLength (lengthAwaited s .short) (BitVec.ofNat 8 n) n :=
    .inl ⟨rfl, (Nat.mod_eq_of_lt (by omega)).symm⟩
  rw [rxFeed_cons, rxFeed_cons, rxFeed_nil, rxStep_startShort hframing hst,
    rxStep_of_length_admitted (lengthAwaited_rxInv s .short) rfl hfield hmax]
  simp [lengthAwaited, lengthTaken]

theorem rxFeed_longHeader {s : State} (hframing : s.cfg.framing = FramingParams.source) (hst : s.rxState = .seeking)
    {n : Nat} (hmax : n ≤ s.cfg.maxLen) (hn : n ≤ 65535) :
    rxFeed (0x03#8 :: be16 (BitVec.ofNat 16 n)) s = lengthTaken s .long n 3 := by
  have hsum : n = (highByte ((BitVec.ofNat 16 n).extractLsb' 8 8)).toNat +
      ((BitVec.ofNat 16 n).extractLsb' 0 8).toNat := by
    rw [highByte_eq_ofNat]
    simp [Nat.shiftRight_eq_div_pow]
    omega
  have hfirst := rxStep_of_readLen_first (s := lengthAwaited s .long) rfl rfl rfl
  have hinv := rxStep_rxInv _ ((BitVec.ofNat 16 n).extractLsb' 8 8) (lengthAwaited_rxInv s .long)
  rw [hfirst] at hinv
  rw [be16, rxFeed_cons, rxFeed_cons, rxFeed_cons, rxFeed_nil, rxStep_startLong hframing hst, hfirst,
    rxStep_of_length_admitted hinv rfl (.inr ⟨rfl, rfl, hsum⟩) hmax]
  simp [lengthAwaited, lengthTaken]

/-- The body bytes still to come, whatever their values (R174). -/
theorem rxFeed_of_readBody {bs : List Byte} {s : State} (hinv : s.rxInv = true) (hst : s.rxState = .readBody)
    (hlen : s.rxBody.length + bs.length = s.rxLen.toNat) :
    rxFeed bs s = { s with rxBody := s.rxBody ++ bs, rxCnt := 0#16, rxState := .readCrc,
                           lineRes := s.lineRes ++ List.replicate bs.length okResult } := by
  induction bs generalizing s with
  | nil =>
    obtain ⟨_, _, hlt⟩ := (rxInv_readBody_iff hst).1 hinv
    exact absurd hlen hlt.ne
  | cons b bs ih =>
    have hinv' := rxStep_rxInv s b hinv
    rw [List.length_cons] at hlen
    rw [rxFeed_cons]
    rw [rxStep_of_readBody hinv hst] at hinv' ⊢
    by_cases hlast : s.rxBody.length + 1 = s.rxLen.toNat
    · obtain rfl : bs = [] := List.eq_nil_of_length_eq_zero (by omega)
      rw [if_pos hlast, rxFeed_nil]
      rfl
    · rw [if_neg hlast] at hinv' ⊢
      rw [ih hinv' hst (by simp; omega)]
      simp [List.replicate_succ]

/-- The two bytes of the CRC field (R175). -/
theorem rxFeed_of_readCrc {s : State} (hst : s.rxState = .readCrc) (hcnt : s.rxCnt = 0#16) (crc : Word16) :
    rxFeed (be16 crc) s = { s with rxCrc := crc, rxCnt := 0#16, rxState := .readEnd,
                                   lineRes := s.lineRes ++ List.replicate 2 okResult } := by
  have hword : highByte (crc.extractLsb' 8 8) ||| (crc.extractLsb' 0 8).zeroExtend 16 = crc := word16_of_bytes crc
  rw [be16, rxFeed_cons, rxFeed_cons, rxFeed_nil, rxStep_of_readCrc_first hst hcnt, rxStep_of_readCrc_last, hword]
  · simp
  · exact hst
  · rfl

/-- Header, body and CRC field, the header declaring the body's length. -/
theorem rxFeed_untilEnd {s : State} {header body : List Byte} {form : RxForm} {k : Nat}
    (hheader : rxFeed header s = lengthTaken s form body.length k) (hmax : body.length ≤ s.cfg.maxLen)
    (hlen : body.length ≤ 65535) (crc : Word16) :
    rxFeed (header ++ (body ++ be16 crc)) s = awaitingEnd s form body crc (k + (body.length + 2)) := by
  rw [rxFeed_append, hheader, rxFeed_append]
  by_cases hempty : body = []
  · subst hempty
    rw [rxFeed_nil, rxFeed_of_readCrc rfl rfl]
    simp [lengthTaken, awaitingEnd, ← List.replicate_append_replicate]
  · have hpos : body.length ≠ 0 := mt List.eq_nil_of_length_eq_zero hempty
    have hval : (BitVec.ofNat 16 body.length).toNat = body.length := Nat.mod_eq_of_lt (by omega)
    have hst : (lengthTaken s form body.length k).rxState = .readBody := if_neg hpos
    have hinv : (lengthTaken s form body.length k).rxInv = true := by
      rw [rxInv_readBody_iff hst]
      simp only [lengthTaken, hval, List.length_nil]
      exact ⟨hmax, rfl, by omega⟩
    rw [rxFeed_of_readBody hinv hst (by simp only [lengthTaken, hval, List.length_nil, Nat.zero_add]),
      rxFeed_of_readCrc rfl rfl]
    simp [lengthTaken, awaitingEnd, ← List.replicate_append_replicate]

theorem rxFeed_wholeFrame {s : State} (hwire : SourceWire s.cfg) {header body : List Byte} {form : RxForm} {k : Nat}
    (hheader : rxFeed header s = lengthTaken s form body.length k) (hmax : body.length ≤ s.cfg.maxLen)
    (hlen : body.length ≤ 65535) (crc : Word16) (last : Byte) :
    rxFeed (header ++ (body ++ be16 crc) ++ [last]) s =
      received s form body crc (frameEvent body crc last) (body.length + (k + 3)) := by
  have hcount : k + (body.length + 2) + 1 = body.length + (k + 3) := by omega
  rw [rxFeed_append, rxFeed_untilEnd hheader hmax hlen, rxFeed_cons, rxFeed_nil,
    rxStep_of_readEnd (s := awaitingEnd s form body crc _) hwire rfl, ← hcount]
  simp [awaitingEnd, received, List.replicate_succ']

theorem encode_frameShort {cfg : Config} (hframing : cfg.framing = FramingParams.source) (body : List Byte)
    (crc : Word16) (last : Byte) : encode cfg (.frameShort body crc last) =
      [0x02#8, BitVec.ofNat 8 body.length] ++ (body ++ be16 crc) ++ [last] := by
  simp [encode, shortFrameBytes, hframing, FramingParams.source]

theorem encode_frameLong {cfg : Config} (hframing : cfg.framing = FramingParams.source) (body : List Byte)
    (crc : Word16) (last : Byte) : encode cfg (.frameLong body crc last) =
      (0x03#8 :: be16 (BitVec.ofNat 16 body.length)) ++ (body ++ be16 crc) ++ [last] := by
  simp [encode, longFrameBytes, hframing, FramingParams.source]

theorem receiveFirst_startShort {s : State} (hframing : s.cfg.framing = FramingParams.source)
    (hst : s.rxState = .seeking) (b : Byte) (others : List Byte) :
    receiveFirst (0x02#8 :: b :: others) s = arriving s .short (b :: others) :=
  rxStep_startShort (s := { s with input := .line (b :: others) :: s.input }) hframing hst

theorem receiveFirst_startLong {s : State} (hframing : s.cfg.framing = FramingParams.source)
    (hst : s.rxState = .seeking) (b : Byte) (others : List Byte) :
    receiveFirst (0x03#8 :: b :: others) s = arriving s .long (b :: others) :=
  rxStep_startLong (s := { s with input := .line (b :: others) :: s.input }) hframing hst

/-- Settles O48: the header gives form and length, and body, CRC field and end byte follow. -/
theorem wholeFrameReceived : Obligations.WholeFrameReceived := by
  intro body crc last s hwire hst hmax
  have hframing : s.cfg.framing = FramingParams.source := hwire.1
  refine ⟨fun hshort => ⟨?_, ?_⟩, fun hlong => ⟨?_, ?_⟩⟩
  · rw [exec_of_frame rfl, encode_frameShort hframing]
    exact congrArg Host.Outcome.next (receiveFirst_startShort hframing hst _ _)
  · rw [feed_eq, encode_frameShort hframing,
      rxFeed_wholeFrame hwire (rxFeed_shortHeader hframing hst hmax hshort) hmax (by omega)]
  · rw [exec_of_frame rfl, encode_frameLong hframing]
    exact congrArg Host.Outcome.next (receiveFirst_startLong hframing hst _ _)
  · rw [feed_eq, encode_frameLong hframing,
      rxFeed_wholeFrame hwire (rxFeed_longHeader hframing hst hmax hlong) hmax hlong]

/-! ### What `make_frame` answers, received (R179, R180) -/

theorem rxFeed_sourceHeader {s : State} (hframing : s.cfg.framing = FramingParams.source) (hst : s.rxState = .seeking)
    {body : List Byte} (hmax : body.length ≤ s.cfg.maxLen) (hlen : body.length ≤ 65535) :
    ∃ form k, rxFeed (sourceHeader body) s = lengthTaken s form body.length k := by
  unfold sourceHeader
  split
  case isTrue hshort => exact ⟨.short, 2, rxFeed_shortHeader hframing hst hmax hshort⟩
  case isFalse => exact ⟨.long, 3, rxFeed_longHeader hframing hst hmax hlen⟩

theorem sourceHeader_congr {body body' : List Byte} (h : body'.length = body.length) :
    sourceHeader body' = sourceHeader body := by
  rw [sourceHeader, sourceHeader, h]

theorem rxFeed_appends_rxEvt (bs : List Byte) (s : State) : s.rxEvt <+: (rxFeed bs s).rxEvt := by
  induction bs generalizing s with
  | nil => exact List.prefix_refl _
  | cons b bs ih => exact (rxStep_appends_rxEvt s b).trans (ih _)

/-- Bytes that post nothing post nothing on the way. -/
theorem rxEvt_of_prefix {s : State} {bs cs : List Byte} (hprefix : bs <+: cs)
    (hquiet : (rxFeed cs s).rxEvt = s.rxEvt) : (rxFeed bs s).rxEvt = s.rxEvt := by
  obtain ⟨rest, rfl⟩ := hprefix
  rw [rxFeed_append] at hquiet
  exact ((hquiet ▸ rxFeed_appends_rxEvt rest (rxFeed bs s)).eq_of_length_le
    (rxFeed_appends_rxEvt bs s).length_le)

/-- The bytes post nothing before the last of them and exactly e with it, which leaves `SEEKING`. -/
def PostsAtEnd (s : State) (bs : List Byte) (e : Event) : Prop :=
  (∀ k, k < bs.length → ∃ t, feed (bs.take k) s = .next t ∧ t.rxEvt = s.rxEvt) ∧
    ∃ t, feed bs s = .next t ∧ t.rxEvt = s.rxEvt ++ [e] ∧ t.rxState = .seeking

/-- A frame of the source's layout with any body and any CRC field: the event follows from the two (R176). -/
theorem postsAtEnd_of_frame {s : State} (hwire : SourceWire s.cfg) (hcfg : s.cfg.ok = true) (hst : s.rxState = .seeking)
    {body : List Byte} (hmax : body.length ≤ s.cfg.maxLen) (crc : Word16) :
    PostsAtEnd s (sourceHeader body ++ (body ++ be16 crc) ++ [0x03#8]) (frameEvent body crc 0x03#8) := by
  have hlimit : s.cfg.maxLen ≤ 65535 := ((config_ok_iff s.cfg).1 hcfg).1
  have hlen : body.length ≤ 65535 := hmax.trans hlimit
  obtain ⟨form, n, hheader⟩ := rxFeed_sourceHeader hwire.1 hst hmax hlen
  have hquiet : (rxFeed (sourceHeader body ++ (body ++ be16 crc)) s).rxEvt = s.rxEvt := by
    rw [rxFeed_untilEnd hheader hmax hlen]
    rfl
  refine ⟨fun k hk => ⟨_, feed_eq _ s, rxEvt_of_prefix ?_ hquiet⟩, _, feed_eq _ s, ?_, ?_⟩
  · rw [List.length_append, List.length_singleton, Nat.lt_add_one_iff] at hk
    rw [List.take_append_of_le_length hk]
    exact List.take_prefix k _
  · rw [rxFeed_wholeFrame hwire hheader hmax hlen]
    rfl
  · rw [rxFeed_wholeFrame hwire hheader hmax hlen]
    rfl

theorem length_le_of_makeFrame {cfg : Config} {body f : List Byte} (h : makeFrame cfg body = .ok f) :
    body.length ≤ cfg.maxLen := by
  by_contra hlong
  simp [makeFrame, Nat.not_le.1 hlong] at h

/-- Settles O49: the CRC field of a frame is its body's CRC. -/
theorem frameRoundTrip : Obligations.FrameRoundTrip := by
  intro body f s hwire hcfg hst hf
  have hposts := postsAtEnd_of_frame hwire hcfg hst (length_le_of_makeFrame hf) (crc16 CrcParams.source body)
  rw [frameEvent, if_pos rfl, if_pos rfl, ← sourceFrame_eq, ← eq_sourceFrame_of_makeFrame hwire hf] at hposts
  exact hposts

/-! ### One flipped bit (R180) -/

theorem flipBit_append_of_lt {as : List Byte} (bs : List Byte) {j : Nat} (hj : j < 8 * as.length) :
    flipBit (as ++ bs) j = flipBit as j ++ bs := by
  induction as generalizing j with
  | nil => exact absurd hj (Nat.not_lt_zero j)
  | cons a as ih =>
    by_cases hfirst : j < 8
    · rw [List.cons_append, flipBit_cons_of_lt _ _ hfirst, flipBit_cons_of_lt _ _ hfirst, List.cons_append]
    · obtain ⟨k, rfl⟩ := Nat.exists_eq_add_of_le' (Nat.not_lt.1 hfirst)
      rw [List.length_cons] at hj
      rw [List.cons_append, flipBit_cons_add, flipBit_cons_add, ih (by omega), List.cons_append]

theorem flipBit_append_add (as bs : List Byte) (j : Nat) :
    flipBit (as ++ bs) (j + 8 * as.length) = as ++ flipBit bs j := by
  induction as with
  | nil => rfl
  | cons a as ih => rw [List.length_cons, Nat.mul_add_one, ← Nat.add_assoc, List.cons_append, flipBit_cons_add, ih,
      List.cons_append]

theorem exists_eq_append_be16 {bs : List Byte} {n : Nat} (h : bs.length = n + 2) :
    ∃ body crc, bs = body ++ be16 crc ∧ body.length = n := by
  obtain ⟨hi, lo, hlast⟩ : ∃ hi lo, bs.drop n = [hi, lo] := List.length_eq_two.1 (by simp [h])
  refine ⟨bs.take n, word16 hi lo, ?_, by simp [h]⟩
  rw [be16_word16, ← hlast, List.take_append_drop]

/-- A flipped bit of a body and its CRC leaves a body of the same length and a CRC field that is not its CRC: the
residue is 0 no more (41_crc16.md R102 items 4 and 5). -/
theorem flipBit_body_and_crc {body : List Byte} {j : Nat}
    (hj : j < 8 * (body ++ be16 (crc16 CrcParams.source body)).length) :
    ∃ body' crc, flipBit (body ++ be16 (crc16 CrcParams.source body)) j = body' ++ be16 crc ∧
      body'.length = body.length ∧ crc16 CrcParams.source body' ≠ crc := by
  obtain ⟨hdetects, _⟩ := crcDetectsEverySingleBit
  have hresidue := hdetects _ _ hj
  obtain ⟨body', crc, hsplit, hlen⟩ :=
    exists_eq_append_be16 ((flipBit_length (body ++ be16 (crc16 CrcParams.source body)) j).trans List.length_append)
  refine ⟨body', crc, hsplit, hlen, ?_⟩
  rintro rfl
  rw [hsplit, crcResidueIsZero, crcResidueIsZero] at hresidue
  exact hresidue rfl

/-- Settles O50: header and end marker are as sent, and the CRC does not match. -/
theorem singleBitCorruptionDetected : Obligations.SingleBitCorruptionDetected := by
  intro body f j s hwire hcfg hst hf hlow hhigh
  have hmax := length_le_of_makeFrame hf
  obtain rfl := eq_sourceFrame_of_makeFrame hwire hf
  have hframe := sourceFrame_length body
  obtain ⟨i, rfl⟩ : ∃ i, j = i + 8 * (sourceHeader body).length := Nat.exists_eq_add_of_le' (by omega)
  have hi : i < 8 * (body ++ be16 (crc16 CrcParams.source body)).length := by
    rw [List.length_append, be16_length]
    omega
  obtain ⟨body', crc, hflip, hlen, hcrc⟩ := flipBit_body_and_crc hi
  have hbytes : flipBit (sourceFrame body) (i + 8 * (sourceHeader body).length) =
      sourceHeader body' ++ (body' ++ be16 crc) ++ [0x03#8] := by
    rw [sourceFrame_eq, List.append_assoc, flipBit_append_add, flipBit_append_of_lt _ hi, hflip,
      sourceHeader_congr hlen, ← List.append_assoc]
  have hposts := postsAtEnd_of_frame hwire hcfg hst (hlen.trans_le hmax) crc
  rw [frameEvent, if_pos rfl, if_neg hcrc, ← hbytes] at hposts
  rw [← flipBit_length (sourceFrame body) (i + 8 * (sourceHeader body).length)]
  exact hposts

/-! ### Back in `SEEKING` (R181) -/

/-- A bound on the bytes the receive path still takes before it is in `SEEKING`, in a state that meets the invariant. -/
def bytesToSeeking (s : State) : Nat :=
  match s.rxState with
  | .seeking => 0
  | .readLen => s.cfg.maxLen + (if s.rxForm = .long ∧ s.rxCnt = 0#16 then 5 else 4)
  | .readBody => s.rxLen.toNat - s.rxCnt.toNat + 3
  | .readCrc => if s.rxCnt = 0#16 then 3 else 2
  | .readEnd => 1

theorem bytesToSeeking_le {s : State} (hinv : s.rxInv = true) : bytesToSeeking s ≤ s.cfg.maxLen + 5 := by
  unfold bytesToSeeking
  cases hst : s.rxState with
  | readBody =>
    obtain ⟨hmax, _, _⟩ := (rxInv_readBody_iff hst).1 hinv
    simp only
    omega
  | _ => grind

theorem bytesToSeeking_rxStep_of_completesLength {s : State} {b : Byte} {n : Nat} (hinv : s.rxInv = true)
    (hst : s.rxState = .readLen) (hn : CompletesLength s b n) : bytesToSeeking (rxStep s b) < s.cfg.maxLen + 4 := by
  by_cases hmax : s.cfg.maxLen < n
  · rw [rxStep_of_length_oversized hinv hst hn hmax]
    simp [bytesToSeeking]
  · rw [rxStep_of_length_admitted hinv hst hn (Nat.not_lt.1 hmax)]
    by_cases hzero : n = 0
    · simp +arith [bytesToSeeking, hzero]
    · have hmod := Nat.mod_le n 65536
      simp only [bytesToSeeking, if_neg hzero, BitVec.toNat_ofNat]
      omega

theorem bytesToSeeking_rxStep {s : State} (hinv : s.rxInv = true) (hne : s.rxState ≠ .seeking) (b : Byte) :
    bytesToSeeking (rxStep s b) < bytesToSeeking s := by
  cases hst : s.rxState with
  | seeking => exact absurd hst hne
  | readLen =>
    rcases (rxInv_readLen_iff hst).1 hinv with ⟨hform, hcnt⟩ | ⟨hform, hcnt⟩ | ⟨hform, hcnt, _⟩
    · have hnext := bytesToSeeking_rxStep_of_completesLength hinv hst (.inl ⟨hform, rfl⟩) (b := b)
      simpa [bytesToSeeking, hst, hform] using hnext
    · rw [rxStep_of_readLen_first hst hform hcnt]
      simp [bytesToSeeking, hst, hform, hcnt]
    · have hnext := bytesToSeeking_rxStep_of_completesLength hinv hst (.inr ⟨hform, hcnt, rfl⟩) (b := b)
      simpa [bytesToSeeking, hst, hcnt] using hnext
  | readBody =>
    obtain ⟨_, hcnt, hlt⟩ := (rxInv_readBody_iff hst).1 hinv
    have hnow : bytesToSeeking s = s.rxLen.toNat - s.rxBody.length + 3 := by simp only [bytesToSeeking, hst, hcnt]
    rw [hnow, rxStep_of_readBody hinv hst]
    split
    case isTrue =>
      simp [bytesToSeeking]
      omega
    case isFalse =>
      have hlen := s.rxLen.isLt
      simp [bytesToSeeking, hst]
      omega
  | readCrc =>
    obtain ⟨_, _, hcnt | ⟨hcnt, _⟩⟩ := (rxInv_readCrc_iff hst).1 hinv
    · rw [rxStep_of_readCrc_first hst hcnt]
      simp [bytesToSeeking, hst, hcnt]
    · rw [rxStep_of_readCrc_last hst hcnt]
      simp [bytesToSeeking, hst, hcnt]
  | readEnd =>
    have hend : (rxStep s b).rxState = .seeking := by simp [rxStep, rxTransition, hst, rxReadEnd]
    simp [bytesToSeeking, hst, hend]

theorem rxFeed_reaches_seeking {bs : List Byte} {s : State} (hinv : s.rxInv = true)
    (hlen : bytesToSeeking s ≤ bs.length) : ∃ k, k ≤ bs.length ∧ (rxFeed (bs.take k) s).rxState = .seeking := by
  induction bs generalizing s with
  | nil =>
    refine ⟨0, le_rfl, ?_⟩
    by_contra hst
    have hfewer := bytesToSeeking_rxStep hinv hst 0x00#8
    rw [List.length_nil] at hlen
    omega
  | cons b bs ih =>
    by_cases hst : s.rxState = .seeking
    · exact ⟨0, Nat.zero_le _, hst⟩
    · have hfewer := bytesToSeeking_rxStep hinv hst b
      rw [List.length_cons] at hlen
      obtain ⟨k, hk, hseek⟩ := ih (rxStep_rxInv s b hinv) (by omega)
      exact ⟨k + 1, Nat.succ_le_succ hk, hseek⟩

/-- Settles O51: every byte brings `SEEKING` nearer, from at most MAX_LEN + 5 bytes away. -/
theorem rxReturnsToSeekingInTime : Obligations.RxReturnsToSeekingInTime := by
  intro bs s hinv hlen
  obtain ⟨k, hk, hseek⟩ := rxFeed_reaches_seeking hinv ((bytesToSeeking_le hinv).trans hlen.ge)
  exact ⟨k, _, hk, feed_eq _ s, hseek⟩

/-! ### After garbage (R181) -/

theorem rxFeed_garbage {s : State} (hframing : s.cfg.framing = FramingParams.source) (hst : s.rxState = .seeking)
    {g : List Byte} (hg : ∀ b ∈ g, b ≠ 0x02#8 ∧ b ≠ 0x03#8) :
    rxFeed g s = { s with lineRes := s.lineRes ++ List.replicate g.length okResult } := by
  induction g generalizing s with
  | nil => simp
  | cons b g ih =>
    obtain ⟨⟨hshort, hlong⟩, hrest⟩ := List.forall_mem_cons.1 hg
    rw [rxFeed_cons, rxStep_of_seeking hframing hst, if_neg hshort, if_neg hlong,
      ih (s := { s with lineRes := s.lineRes ++ [okResult] }) hframing hst hrest]
    simp [List.replicate_succ]

/-- Settles O52: garbage without start markers changes only the results, so the round trip follows it; the swallowed
frame is evaluated. -/
theorem resynchronisationAfterGarbage : Obligations.ResynchronisationAfterGarbage := by
  refine ⟨fun g body f s hwire hcfg hst hg hf => ⟨⟨_, feed_eq g s, ?_, ?_⟩, ?_⟩, _, rfl, rfl, rfl, rfl, rfl⟩
  · rw [rxFeed_garbage hwire.1 hst hg]
  · rw [rxFeed_garbage hwire.1 hst hg]
    exact hst
  · obtain ⟨_, t, hfeed, hevt, hseek⟩ := frameRoundTrip body f
      { s with lineRes := s.lineRes ++ List.replicate g.length okResult } hwire hcfg hst hf
    refine ⟨t, ?_, hevt, hseek⟩
    rw [feed_eq, rxFeed_append, rxFeed_garbage hwire.1 hst hg, ← feed_eq, hfeed]

end Sys2Proof.Machine
end

section
/-! PROOFS. The statements of 60_exceptions.md: the results of the operations (R200, R208, R210), the events (R201, R203)
and where a step stops (R214). -/

namespace Sys2Proof.Machine

/-! ### Where a step stops (R214) -/

/-- Bytes that begin no operation end inside one, or begin with an op byte that is not assigned (30_encoding.md R73, R74). -/
theorem decodeOp_error_cases {bs : List Byte} {e : DecodeError} (h : decodeOp bs = .error e) :
    e = .truncated ∨ ∃ op, e = .illegalOp op := by
  cases bs with
  | nil => exact .inl (Except.error.inj h).symm
  | cons op bs =>
    rcases opByte_cases op with hillegal | ⟨r, hr, rfl⟩ | ⟨r, hr, rfl⟩ | ⟨r, hr, rfl⟩ | rfl
    · exact .inr ⟨op, Except.error.inj (h.symm.trans (hillegal bs))⟩
    · cases (decodeOp_opsN r hr bs).symm.trans h
    · exact .inl (decodeB_error ((decodeOp_opsB r hr bs).symm.trans h))
    · exact .inl (decodeF_error ((decodeOp_opsF r hr bs).symm.trans h))
    · exact .inl (decodeP_error h)

/-- The fetch from a stream refuses only what the decoder finds truncated: the decoder's other errors that `fetchOps` would
refuse are errors of the frame and the body decoder. -/
theorem decodeOp_of_fetchOps_truncated {bs : List Byte} {rest : List Input} (h : fetchOps bs rest = .truncated) :
    decodeOp bs = .error .truncated := by
  cases hd : decodeOp bs with
  | ok p => simp [fetchOps, hd] at h
  | error e =>
    rcases decodeOp_error_cases hd with rfl | ⟨op, rfl⟩
    · rfl
    · simp [fetchOps, hd] at h

theorem fetchLine_ne_truncated (cfg : Config) (b : Byte) (bs : List Byte) (rest : List Input) :
    fetchLine cfg b bs rest ≠ .truncated := by
  cases hd : decodeFrame cfg (b :: bs) <;> simp [fetchLine, hd]

theorem fetchBody_ne_truncated (cfg : Config) (cid : Byte) (payload : List Byte) (rest : List Input) :
    fetchBody cfg cid payload rest ≠ .truncated := by
  cases hd : decodeBody cfg (cid :: payload) <;> simp [fetchBody, hd]

/-- What is presented is, after empty chunks, a non-empty serialised stream that ends inside an operation. -/
def PresentsTruncated (inputs : List Input) : Prop :=
  ∃ pre bs rest, inputs = pre ++ .ops bs :: rest ∧
    (∀ x ∈ pre, x = .ops [] ∨ x = .line [] ∨ x = .body []) ∧ bs ≠ [] ∧ decodeOp bs = .error .truncated

theorem PresentsTruncated.cons {inputs : List Input} (h : PresentsTruncated inputs) {x : Input}
    (hx : x = .ops [] ∨ x = .line [] ∨ x = .body []) : PresentsTruncated (x :: inputs) := by
  obtain ⟨pre, bs, rest, rfl, hpre, hstream⟩ := h
  exact ⟨x :: pre, bs, rest, rfl, List.forall_mem_cons.2 ⟨hx, hpre⟩, hstream⟩

theorem presentsTruncated_of_fetchFrom {cfg : Config} {inputs : List Input} (h : fetchFrom cfg inputs = .truncated) :
    PresentsTruncated inputs := by
  induction inputs with
  | nil => cases h
  | cons x inputs ih =>
    match x, h with
    | .reset, h => cases h
    | .ops [], h | .line [], h | .body [], h => exact (ih h).cons (by simp)
    | .ops (b :: bs), h =>
      exact ⟨[], b :: bs, inputs, rfl, by simp, List.cons_ne_nil b bs, decodeOp_of_fetchOps_truncated h⟩
    | .line (b :: bs), h => exact absurd h (fetchLine_ne_truncated cfg b bs inputs)
    | .body (b :: bs), h => exact absurd h (fetchBody_ne_truncated cfg b bs inputs)

/-- Settles O6: both checks pass and every instruction goes on, so only a truncated stream stops the step. -/
theorem stepStopsOnlyAtTruncatedStream : Obligations.StepStopsOnlyAtTruncatedStream := by
  rintro s ⟨hcfg, hrx⟩
  cases hf : fetch s with
  | run i rest =>
    rw [step_of_fetch_run ⟨hcfg, hrx⟩ hf]
    exact .inl (exec_answers_next i _)
  | truncated => exact .inr ⟨by simp [step, hcfg, hrx, hf], presentsTruncated_of_fetchFrom hf⟩
  | idle | reset | illegal => exact .inl (by simp [step, hcfg, hrx, hf])

/-- Settles O11: the configuration check answers with a refusal, and a state that passes both checks goes on or is
refused. -/
theorem faultExactlyInBrokenReceiveState : Obligations.FaultExactlyInBrokenReceiveState := by
  refine fun s => ⟨fun ⟨r, hr⟩ => ?_, fun ⟨hcfg, hrx⟩ => ⟨.rxStateBroken, by simp [step, hcfg, hrx]⟩⟩
  have hcfg : s.cfg.ok = true := by
    by_contra hbad
    cases (step_of_config_not_ok (Bool.eq_false_of_not_eq_true hbad)).symm.trans hr
  refine ⟨hcfg, Bool.eq_false_of_not_eq_true fun hrx => ?_⟩
  rcases stepStopsOnlyAtTruncatedStream s ⟨hcfg, hrx⟩ with ⟨t, ht⟩ | ⟨hrefused, _⟩
  · cases ht.symm.trans hr
  · cases hrefused.symm.trans hr

/-! ### An unassigned op byte (R208) -/

theorem decodeOp_of_unassigned {op : Byte} (h : op ∉ assignedOps) (bs : List Byte) :
    decodeOp (op :: bs) = .error (.illegalOp op) := by
  simp only [assignedOps, List.mem_cons, not_or] at h
  simp [decodeOp, h]

/-- Settles O9: the stream's first byte is fetched as an illegal op byte, and `illegalOp` only returns its result. -/
theorem unassignedOpReturnsIllegalOp : Obligations.UnassignedOpReturnsIllegalOp := by
  rintro s op tail rest ⟨hcfg, hrx⟩ hop hin
  have hf : fetch s = .illegal (putBack .ops tail rest) := by
    simp [fetch, hin, fetchFrom, fetchOps, decodeOp_of_unassigned hop]
  simp [step, hcfg, hrx, hf, illegalOp, raise_eq]

/-! ### OVERSIZED_FRAME (R203) -/

/-- A received byte posts OVERSIZED_FRAME only where it completes a declared length above `MAX_LEN`. -/
theorem rxStep_count_oversizedFrame (s : State) (b : Byte) :
    (rxStep s b).rxEvt.count .oversizedFrame = s.rxEvt.count .oversizedFrame ∨
      (s.rxState = .readLen ∧ s.cfg.maxLen < (rxStep s b).rxLen.toNat) := by
  rcases rxTransition_cases b s with ⟨_, _, h⟩ | ⟨_, _, _, h⟩ | ⟨_, _, _, h⟩ | ⟨_, _, _, h⟩ |
    ⟨len, hst, _, ⟨hlen, h⟩ | ⟨_, _, h⟩ | ⟨_, _, h⟩⟩ | ⟨_, _, h⟩ | ⟨_, _, h⟩ | ⟨_, _, h⟩ | ⟨_, _, h⟩ |
    ⟨e, _, ⟨_, _, rfl⟩ | ⟨_, _, rfl⟩ | ⟨_, rfl⟩, h⟩
  on_goal 5 => exact .inr ⟨hst, by simpa [rxStep, h] using hlen⟩
  all_goals exact .inl (by simp [rxStep, h])

/-- Settles O53: only a received byte posts, and no 16-bit length is above 65535. -/
theorem noOversizedFrameAtDefaultLimit : Obligations.NoOversizedFrameAtDefaultLimit := by
  intro s t hmax h
  obtain ⟨left, rfl | rfl | ⟨c, fs, r, rfl⟩ | ⟨b, rfl⟩⟩ := step_cases h
  · rfl
  · rfl
  · rfl
  · rcases rxStep_count_oversizedFrame { s with input := left } b with hcount | ⟨_, hlen⟩
    · exact hcount
    · have hword := (rxStep { s with input := left } b).rxLen.isLt
      have hlimit : 65535 < (rxStep { s with input := left } b).rxLen.toNat := hmax ▸ hlen
      omega

/-! ### Result codes (R200) -/

/-- The result codes that the table of R200 lists for an instruction; a BODY row has those of its body's FRAME.ENCODE
(log 9). -/
def listedCodes : Instr → List ResultCode
  | .crcClear | .crcUpdate _ | .crcRead | .rxByte _ | .frameShort _ _ _ | .frameLong _ _ _ => [.ok]
  | .cmdSetDuty _ | .cmdSetCurrent _ | .cmdSetBrake _ | .cmdSetRpm _ | .cmdSetPos _ | .cmdSetServo _ =>
    [.ok, .argNotFinite, .argRange, .txOversized]
  | .frameEncode _ _ | .cmdFwVersion | .cmdGetValues | .bodyFwVersion | .bodyGetValues | .bodySetDuty _
  | .bodySetCurrent _ | .bodySetBrake _ | .bodySetRpm _ | .bodySetPos _ | .bodySetServo _ => [.ok, .txOversized]

/-- The state t is s after exactly one more result on the host port, whose code is one of codes. -/
def ReturnsOneOf (codes : List ResultCode) (s t : State) : Prop :=
  ∃ r : Result, t.hostRes = s.hostRes ++ [r] ∧ r.code ∈ codes

theorem ReturnsOneOf.mono {codes codes' : List ResultCode} {s t : State} (h : ReturnsOneOf codes s t)
    (hsub : codes ⊆ codes') : ReturnsOneOf codes' s t := by
  obtain ⟨r, hres, hcode⟩ := h
  exact ⟨r, hres, hsub hcode⟩

theorem sendBody_returnsOneOf (body : List Byte) (s : State) :
    ReturnsOneOf [.ok, .txOversized] s (sendBody body s) := by
  rcases sendBody_cases body s with ⟨f, _, h⟩ | ⟨_, h⟩
  · exact ⟨⟨.ok, none⟩, by rw [h], by simp⟩
  · exact ⟨⟨.txOversized, none⟩, by rw [h], by simp⟩

theorem cmdSet_returnsOneOf (p : CmdParams) (x : Word64) (s : State) :
    ReturnsOneOf [.ok, .argNotFinite, .argRange, .txOversized] s (cmdSet p x s) := by
  rcases cmdSet_cases p x s with ⟨q, _, h⟩ | ⟨e, _, he, h⟩
  · rw [h]
    exact (sendBody_returnsOneOf _ s).mono (by simp)
  · exact ⟨⟨e, none⟩, by rw [h], by rcases he with rfl | rfl <;> simp⟩

theorem exec_returnsOneOf_listedCodes {i : Instr} (hi : onLine i = false) (s : State) :
    ∃ t, exec i s = .next t ∧ ReturnsOneOf (listedCodes i) s t := by
  cases i with
  | crcClear | crcUpdate | crcRead => exact ⟨_, rfl, _, rfl, List.mem_singleton_self _⟩
  | frameEncode | cmdFwVersion | cmdGetValues | bodyFwVersion | bodyGetValues | bodySetDuty | bodySetCurrent
  | bodySetBrake | bodySetRpm | bodySetPos | bodySetServo => exact ⟨_, rfl, sendBody_returnsOneOf _ s⟩
  | cmdSetDuty | cmdSetCurrent | cmdSetBrake | cmdSetRpm | cmdSetPos | cmdSetServo =>
    exact ⟨_, rfl, cmdSet_returnsOneOf _ _ s⟩
  | rxByte | frameShort | frameLong => cases hi

theorem illegalOp_notMem_listedCodes (i : Instr) : ResultCode.illegalOp ∉ listedCodes i := by
  cases i <;> simp [listedCodes]

/-- The argument errors are listed for the six setting commands only. -/
theorem setting_of_argError_mem_listedCodes {i : Instr} {code : ResultCode} (hcode : code ∈ listedCodes i)
    (harg : code = .argNotFinite ∨ code = .argRange) :
    ∃ x, i = .cmdSetDuty x ∨ i = .cmdSetCurrent x ∨ i = .cmdSetBrake x ∨ i = .cmdSetRpm x ∨ i = .cmdSetPos x ∨
      i = .cmdSetServo x := by
  cases i with
  | cmdSetDuty x | cmdSetCurrent x | cmdSetBrake x | cmdSetRpm x | cmdSetPos x | cmdSetServo x => exact ⟨x, by simp⟩
  | _ => rcases harg with rfl | rfl <;> simp [listedCodes] at hcode

/-- Settles O58: every instruction on the host port returns one of the codes listed for it. -/
theorem resultCodesOfOperations : Obligations.ResultCodesOfOperations := by
  intro i s hi
  obtain ⟨t, ht, r, hres, hcode⟩ := exec_returnsOneOf_listedCodes hi s
  refine ⟨t, r, ht, hres, fun hcrc => ?_, setting_of_argError_mem_listedCodes hcode, fun hillegal => ?_⟩
  · rcases hcrc with rfl | ⟨b, rfl⟩ | rfl <;> exact List.mem_singleton.1 hcode
  · exact illegalOp_notMem_listedCodes i (hillegal ▸ hcode)

/-! ### The first failing check (R210) -/

theorem cmdSet_of_fxEncode_error {p : CmdParams} {x : Word64} {s : State} {code : ResultCode}
    (h : fxEncode s.cfg.product s.cfg.tie p x = .error code) : cmdSet p x s = returned s code := by
  simp [cmdSet, h, raise_eq, returned]

theorem sendBody_hostRes_of_le {body : List Byte} {s : State} (hlen : body.length ≤ s.cfg.maxLen) :
    (sendBody body s).hostRes = s.hostRes ++ [okResult] := by
  rcases makeFrame_cases s.cfg body with ⟨hlong, _⟩ | ⟨_, _, h⟩ | ⟨_, _, h⟩
  · omega
  all_goals simp [sendBody, h, okResult]

theorem raisesInOrder_of_exec {mk : Word64 → Instr} {prm : Config → CmdParams}
    (hexec : ∀ x s, exec (mk x) s = .next (cmdSet (prm s.cfg) x s)) : RaisesInOrder mk prm := by
  rintro x s - ⟨hproduct, htie⟩
  have hraise : ∀ code, fxEncode .binary64 .awayFromZero (prm s.cfg) x = .error code →
      exec (mk x) s = .next (returned s code) := fun code h => by
    rw [hexec, cmdSet_of_fxEncode_error (by rwa [hproduct, htie])]
  refine ⟨fun hfin => ?_, fun hfin hdom => ?_, fun hfin hdom hfl => ?_, fun p hfin hdom hfl hwidth => ?_,
    fun p hfin hdom hfl hwidth hlen => ?_⟩
  · exact hraise _ (fxEncode_of_not_finite hfin)
  · exact hraise _ (fxEncode_of_not_inDomain hfin hdom)
  · exact hraise _ (fxEncode_of_product_infinite hfin hdom hfl)
  · exact hraise _ (by rw [fxEncode_of_product hfin hdom hfl, hwidth, if_neg Bool.false_ne_true])
  · have hq : fxEncode s.cfg.product s.cfg.tie (prm s.cfg) x = .ok (roundHalfAway p) := by
      rw [hproduct, htie, fxEncode_of_product hfin hdom hfl, if_pos hwidth]
    have hbody : s.cfg.maxLen < (commandBody (prm s.cfg) (roundHalfAway p)).length := by
      rwa [commandBody, List.length_cons, Nat.add_comm]
    rw [hexec, cmdSet_of_fxEncode hq, sendBody_oversized hbody]

/-- Settles O30: each setting command is `cmd_set` of its own parameters, FRAME.ENCODE is `sendBody` alone. -/
theorem settingCommandsRaiseInOrder : Obligations.SettingCommandsRaiseInOrder := by
  refine ⟨?_, ?_, ?_, ?_, ?_, ?_, fun cid payload s => ⟨fun hlong => ?oversized, fun hlen => ?fits⟩⟩
  case oversized => exact congrArg Host.Outcome.next (sendBody_oversized (body := cid :: payload) hlong)
  case fits => exact ⟨_, rfl, sendBody_hostRes_of_le (body := cid :: payload) hlen⟩
  all_goals exact raisesInOrder_of_exec fun _ _ => rfl

/-! ### Numbers and serialised forms (R200, R201) -/

/-- Settles O59: the tables of R200 and R201, read off the definitions. -/
theorem codeNumbersAndEventForms : Obligations.CodeNumbersAndEventForms :=
  ⟨rfl, fun _ => rfl, rfl, rfl, rfl⟩

end Sys2Proof.Machine
end

section
/-! PROOFS. The statement of 00_scope.md section 4 about the default configuration (R2). -/

namespace Sys2Proof.Machine

/-- Settles O1: each parameter in the order of R2's table, read off `Config.default`. -/
theorem defaultParameterValues : Obligations.DefaultParameterValues :=
  ⟨rfl, rfl, rfl, rfl, rfl, rfl, rfl, rfl, rfl, rfl, rfl⟩

end Sys2Proof.Machine
end
